-- ==== Sys2Proof/Word.lean ====
section
/-! DEFINITION. The word types of the engine (00_scope.md R8, R10): every value is an unsigned bit vector. -/

namespace Sys2Proof

/-- A register value, a frame byte or a PortValue (R8 `DATA_W` = 8). -/
abbrev Byte := BitVec 8

/-- A host command word (R8 `CMD_W` = 16, R65). -/
abbrev CmdWord := BitVec 16

/-- A DeviceAddress, 0..3 (R8 `ADDR_W` = 2, R32). Two bits, so no address above 3 can be written down. -/
abbrev DeviceAddress := BitVec 2

/-- A register field: 4 bits, of which 0x0..0xA name registers (R26, R67). -/
abbrev RegNum := BitVec 4

/-- The three bytes of one exchange, byte 0 first on the wire (R45, R72, R73, R75). -/
structure Frame where
  b0 : Byte
  b1 : Byte
  b2 : Byte
  deriving DecidableEq, Repr

end Sys2Proof
end

