-- ==== Sys2Proof/Config.lean ====
section
/-! DEFINITION. What an implementation fixes (00_scope.md R8) and the free values: the points the spec leaves open
(93_implementation_defined.md). A free value is an opaque constant with no body, so nothing can evaluate it. -/

namespace Sys2Proof

/-- R8 `WRITE_CONTROL_BASE`. -/
def Config.writeControlBase : Byte := 0x40#8

/-- R8 `READ_CONTROL_BASE`. -/
def Config.readControlBase : Byte := 0x41#8

/-- R8 `WRITE_BIT`, the value of byte 0 bit 0 for a write. -/
def Config.writeBit : Byte := 0#8

/-- R8 `READ_BIT`, the value of byte 0 bit 0 for a read. -/
def Config.readBit : Byte := 1#8

/-- R8 `READ_PLACEHOLDER`, byte 2 of a read request. -/
def Config.readPlaceholder : Byte := 0x00#8

/-- R8 `FRAME_LEN`, also the constant signal `xreq_len` (R29). -/
def Config.frameLen : Byte := 3#8

/-- The largest register number, 0xA: R8 `N_REG` = 11 registers, numbered from 0 (R35). -/
def Config.maxReg : RegNum := 0xA#4

/-- FREE VALUE (93 U1, log 10). `DevInit`: what DevSpace location `key` holds before anything is written to it (R37). -/
opaque Config.devInit (key : Nat) : Byte

/-- FREE VALUE (93 U2, log 11). The `n`-th byte the spec calls `any` (R52): received bytes nobody gives a meaning. -/
opaque Config.anyByte (n : Nat) : Byte

/-- FREE VALUE (R64, log 12). The bits that CorruptingDevice's fixed function `g` flips in the value `v`; `corrupted` makes
sure at least one is flipped. -/
opaque Config.corruptMask (v : Byte) : Byte

/-- FREE VALUE (93 U12, log 13). Whether the exchange that the `n`-th engine reset cuts off took effect on the expander. -/
opaque Config.cutOffApplied (n : Nat) : Bool

end Sys2Proof
end

