-- ==== Sys2Proof/Syntax.lean ====
section
/-! DEFINITION. The instructions (one constructor per row of spec/opcode_table.json), the expander's register names and the
DeviceConfig side-band that is presented with a command. -/

namespace Sys2Proof

/-- R35, R80: the 11 registers of an expander, in the order of their numbers 0x00..0x0A. -/
inductive RegisterId where
  | direction
  | inputPolarity
  | interruptEnable
  | defaultCompare
  | interruptControl
  | configuration
  | pullUp
  | interruptFlag
  | interruptCapture
  | port
  | outputLatch
  deriving DecidableEq, Repr

/-- R31: RegisterConfig, one byte per writable register; any byte is legal. -/
structure RegisterConfig where
  direction : Byte
  polarity : Byte
  interruptEnable : Byte
  defaultCompare : Byte
  interruptControl : Byte
  configuration : Byte
  pullUp : Byte
  port : Byte
  outputLatch : Byte
  deriving DecidableEq, Repr

/-- R30: DeviceConfig as the host presents it on `cmd_cfg` (the transport reference is wiring, R33). -/
structure DeviceConfig where
  address : DeviceAddress
  rc : RegisterConfig
  deriving DecidableEq, Repr

/-- The instructions. The first five are the host commands of R66; a register field keeps its 4 bits, so a command may name
no register (`Instr.wellFormed` says which do). The last two are the wire frames of R72 and R73. -/
inductive Instr where
  | init
  | regrd (reg : RegNum)
  | regwr (reg : RegNum) (value : Byte)
  | portrd
  | portwr (value : Byte)
  | frameWrite (address : DeviceAddress) (reg : RegNum) (value : Byte)
  | frameRead (address : DeviceAddress) (reg : RegNum)
  deriving DecidableEq, Repr

end Sys2Proof
end

