-- ==== Sys2Proof/WellFormed.lean ====
section
/-! DEFINITION. Which instructions are well formed: the register field names one of the 11 registers (R67, U14). -/

namespace Sys2Proof

/-- R67: the values 0x0..0xA name a register, 0xB..0xF name none. -/
def regNamed (reg : RegNum) : Bool := decide (reg ≤ Config.maxReg)

/-- The check the opcode table gives each row (its "constraints"): `reg <= 0xA` wherever there is a register field. -/
def Instr.wellFormed : Instr → Bool
  | .init => true
  | .regrd reg => regNamed reg
  | .regwr reg _ => regNamed reg
  | .portrd => true
  | .portwr _ => true
  | .frameWrite _ reg _ => regNamed reg
  | .frameRead _ reg => regNamed reg

end Sys2Proof
end

