-- ==== Sys2Proof/Decode.lean ====
section
/-! DEFINITION. The encodings of 30_encoding.md: register numbers, the frame codec of 40_frame_codec.md (R85 to R87), the
command-word decoder (R70), the wire-frame decoder (R84), the encoder (R82, R85, R86) and the side-band packing (R71). -/

namespace Sys2Proof

/-! ## Register numbers (R35) -/

/-- R35: RegisterId's ordinal is the physical register number. -/
def RegisterId.number : RegisterId → RegNum
  | .direction => 0x0#4
  | .inputPolarity => 0x1#4
  | .interruptEnable => 0x2#4
  | .defaultCompare => 0x3#4
  | .interruptControl => 0x4#4
  | .configuration => 0x5#4
  | .pullUp => 0x6#4
  | .interruptFlag => 0x7#4
  | .interruptCapture => 0x8#4
  | .port => 0x9#4
  | .outputLatch => 0xA#4

/-! ## Frame codec (40_frame_codec.md) -/

/-- R85 EncodeWrite. -/
def encodeWrite (address : DeviceAddress) (reg : RegNum) (value : Byte) : Frame :=
  { b0 := Config.writeControlBase ||| (address.setWidth 8 <<< 1) ||| Config.writeBit
    b1 := reg.setWidth 8
    b2 := value }

/-- R86 EncodeRead. -/
def encodeRead (address : DeviceAddress) (reg : RegNum) : Frame :=
  { b0 := Config.readControlBase ||| (address.setWidth 8 <<< 1) ||| Config.readBit
    b1 := reg.setWidth 8
    b2 := Config.readPlaceholder }

/-- R87 DecodeReadResponse: byte 2, whatever the other bytes or the status. -/
def decodeReadResponse (rx : Frame) : Byte := rx.b2

/-- R74: the 5-bit pattern field of a control byte. -/
def controlPattern (b0 : Byte) : BitVec 5 := b0.extractLsb' 3 5

/-- R74: the address field of a control byte. -/
def controlAddress (b0 : Byte) : DeviceAddress := b0.extractLsb' 1 2

/-- R74: the read/write bit of a control byte, 1 for a read. -/
def controlRead (b0 : Byte) : Bool := b0.getLsbD 0

/-- What a bus monitor reads from a valid frame (R84). -/
structure FrameFields where
  read : Bool
  address : DeviceAddress
  reg : Byte
  data : Byte
  deriving DecidableEq, Repr

/-- R84: a frame is valid iff its pattern field is 0b01000; then its fields. -/
def monitorFrame (f : Frame) : Option FrameFields :=
  if controlPattern f.b0 = 0b01000#5 then
    some { read := controlRead f.b0, address := controlAddress f.b0, reg := f.b1, data := f.b2 }
  else none

/-! ## Decoding -/

/-- Why a word or a frame is no instruction. The first three are the cases of R139, the last three the frames the engine
never sends (R77, U11). -/
inductive DecodeError where
  | illegalOpcode
  | illegalRegister
  | reservedField
  | framePattern
  | frameRegister
  | framePlaceholder
  deriving DecidableEq, Repr

/-- R65: the `op` field. -/
def cmdOp (w : CmdWord) : BitVec 4 := w.extractLsb' 12 4

/-- R65: the `reg` field. -/
def cmdReg (w : CmdWord) : RegNum := w.extractLsb' 8 4

/-- R65: the `data` field. -/
def cmdData (w : CmdWord) : Byte := w.extractLsb' 0 8

/-- R70: Decode, a total function of the 16-bit command word. -/
def decodeCmd (w : CmdWord) : Except DecodeError Instr :=
  if cmdOp w = 0x1#4 then
    if cmdReg w = 0 ∧ cmdData w = 0 then .ok .init else .error .reservedField
  else if cmdOp w = 0x2#4 then
    if regNamed (cmdReg w) = false then .error .illegalRegister
    else if cmdData w = 0 then .ok (.regrd (cmdReg w)) else .error .reservedField
  else if cmdOp w = 0x3#4 then
    if regNamed (cmdReg w) = false then .error .illegalRegister
    else .ok (.regwr (cmdReg w) (cmdData w))
  else if cmdOp w = 0x4#4 then
    if cmdReg w = 0 ∧ cmdData w = 0 then .ok .portrd else .error .reservedField
  else if cmdOp w = 0x5#4 then
    if cmdReg w = 0 then .ok (.portwr (cmdData w)) else .error .reservedField
  else .error .illegalOpcode

/-- R84 with the constraints of the rows FRAME_WRITE and FRAME_READ: byte 1 is 0x00..0x0A, and a read request carries the
placeholder 0x00 (R77, log 8). -/
def decodeFrame (f : Frame) : Except DecodeError Instr :=
  match monitorFrame f with
  | none => .error .framePattern
  | some v =>
    if v.reg ≤ Config.maxReg.setWidth 8 then
      if v.read then
        if v.data = Config.readPlaceholder then .ok (.frameRead v.address (v.reg.setWidth 4))
        else .error .framePlaceholder
      else .ok (.frameWrite v.address (v.reg.setWidth 4) v.data)
    else .error .frameRegister

/-- The two encodings of 30_encoding.md: a command word, or the three bytes of a wire frame. -/
inductive CodeWord where
  | cmd (w : CmdWord)
  | wire (f : Frame)
  deriving DecidableEq, Repr

/-- The decoder of both encodings, total. -/
def decode : CodeWord → Except DecodeError Instr
  | .cmd w => decodeCmd w
  | .wire f => decodeFrame f

/-! ## Encoding -/

/-- R66, R82: a command word from its three fields. -/
def cmdOf (op : BitVec 4) (reg : RegNum) (data : Byte) : CmdWord :=
  (op.setWidth 16 <<< 12) ||| (reg.setWidth 16 <<< 8) ||| data.setWidth 16

/-- R82 and R85, R86: the word or the frame of an instruction. -/
def encode : Instr → CodeWord
  | .init => .cmd (cmdOf 0x1#4 0 0)
  | .regrd reg => .cmd (cmdOf 0x2#4 reg 0)
  | .regwr reg value => .cmd (cmdOf 0x3#4 reg value)
  | .portrd => .cmd (cmdOf 0x4#4 0 0)
  | .portwr value => .cmd (cmdOf 0x5#4 0 value)
  | .frameWrite address reg value => .wire (encodeWrite address reg value)
  | .frameRead address reg => .wire (encodeRead address reg)

/-! ## The side-band (R71) -/

/-- R71: `cmd_cfg` as 74 bits, `output_latch` highest and `address` lowest. -/
def packCfg (c : DeviceConfig) : BitVec 74 :=
  c.rc.outputLatch ++ c.rc.port ++ c.rc.pullUp ++ c.rc.configuration ++ c.rc.interruptControl ++ c.rc.defaultCompare
    ++ c.rc.interruptEnable ++ c.rc.polarity ++ c.rc.direction ++ c.address

/-- R71 read back: every 74-bit value is a legal DeviceConfig (R70). -/
def unpackCfg (w : BitVec 74) : DeviceConfig :=
  { address := w.extractLsb' 0 2
    rc :=
      { direction := w.extractLsb' 2 8
        polarity := w.extractLsb' 10 8
        interruptEnable := w.extractLsb' 18 8
        defaultCompare := w.extractLsb' 26 8
        interruptControl := w.extractLsb' 34 8
        configuration := w.extractLsb' 42 8
        pullUp := w.extractLsb' 50 8
        port := w.extractLsb' 58 8
        outputLatch := w.extractLsb' 66 8 } }

/-! ## The opcode table's numbering -/

/-- A 24-bit number as a frame, byte 0 in bits 23:16 (the opcode table's FRAME24, log 24). -/
def frameOfNumber (w : BitVec 24) : Frame :=
  { b0 := w.extractLsb' 16 8, b1 := w.extractLsb' 8 8, b2 := w.extractLsb' 0 8 }

/-- The code word of a table row's number: 16 bits for a command, 24 for a frame; no row has another length. -/
def tableCode (nbits w : Nat) : Option CodeWord :=
  if nbits = 16 then some (.cmd (BitVec.ofNat 16 w))
  else if nbits = 24 then some (.wire (frameOfNumber (BitVec.ofNat 24 w)))
  else none

/-- What the decoder reads from an instruction whose bits are `w`, numbered as spec/opcode_table.json numbers them. -/
def decodeTableWord (nbits w : Nat) : Option Instr :=
  if w < 2 ^ nbits then
    match tableCode nbits w with
    | none => none
    | some c =>
      match decode c with
      | .ok i => some i
      | .error _ => none
  else none

end Sys2Proof
end

