-- ==== Sys2Proof/Machine/State.lean ====
section
/-! DEFINITION. The state of the machine: the engine's registers and ports (10_state.md), the expander's registers, the ghost
state, and the coming moves of the host and the transport; with the ways a step can stop. -/

namespace Sys2Proof.Machine

/-- R24: the sequencer phase. Its 4-bit values are `Phase.code`; 14 and 15 do not exist (R108, log 15). -/
inductive Phase where
  | idle
  | initW (k : Fin 9)
  | initRb
  | wrW
  | wrRb
  | rd
  deriving DecidableEq, Repr

/-- R23: the response registers. -/
structure Resp where
  valid : Bool
  verified : Bool
  byte : Byte
  xferOk : Bool
  illegal : Bool
  deriving DecidableEq, Repr

/-- R26: the latches `L`. -/
structure Latches where
  op : BitVec 4
  reg : RegNum
  val : Byte
  addr : DeviceAddress
  rc : RegisterConfig
  deriving DecidableEq, Repr

/-- R12, R29: what the transport gives with a completion: `fail` (status != 0), the received bytes, and `rx_len`. -/
structure Completion where
  fail : Bool
  rx : Frame
  len : Byte
  deriving DecidableEq, Repr

/-- One expander register takes a new value. -/
structure DeviceChange where
  address : DeviceAddress
  reg : RegisterId
  value : Byte
  deriving DecidableEq, Repr

/-- How the transport answers the outstanding exchange (R9 `Transport` and `Device`, log 9): as IdealDevice does (R52), as
CorruptingDevice does (R64), or in any other way, with any completion and any changes in the expanders. -/
inductive Answer where
  | idealDevice
  | corruptingDevice
  | general (completion : Completion) (changes : List DeviceChange)
  deriving DecidableEq, Repr

/-- One entry of the order of moves (R14, R173; logs 1, 2): a move of an agent other than the engine, made before any step of
the engine that is enabled, or the engine's turn. -/
inductive EnvMove where
  /-- The host drives `cmd_valid = 1` with a word and a side-band. -/
  | present (word : CmdWord) (cfg : DeviceConfig)
  /-- The host drives `cmd_valid = 0`. -/
  | withdraw
  /-- The host asserts the reset input for one engine step; it may at any time (R173). -/
  | reset
  /-- The transport answers the outstanding request. -/
  | answer (a : Answer)
  /-- Neither the host nor the transport moves: the engine takes its enabled step, if it has one. -/
  | letEngine
  deriving DecidableEq, Repr

/-- R38: the two states of the device's implicit model. -/
inductive DevState where
  | uninitialized
  | initialized
  deriving DecidableEq, Repr

/-- The expanders' registers that something has been written to: cells (key, byte), the key of (a, r) being 16a + r (log 14).
`Memory.wf` (Machine/Ops.lean) is the canonical form. -/
abbrev Memory := List Host.Cell

/-- The machine. -/
structure State where
  /-- R22 `cmd_valid`, driven by the host. -/
  cmdValid : Bool
  /-- R22 `cmd_word`, driven by the host. -/
  cmdWord : CmdWord
  /-- R22 `cmd_cfg`, driven by the host. -/
  cmdCfg : DeviceConfig
  /-- R160: the reset input. -/
  resetIn : Bool
  /-- R24. -/
  phase : Phase
  /-- R26. -/
  latch : Latches
  /-- R27: the frame being sent. -/
  tx : Frame
  /-- R27: the frame received. -/
  rx : Frame
  /-- R28 `acc_ok`. -/
  accOk : Bool
  /-- R23. -/
  resp : Resp
  /-- R29: the transport's answer, `xrsp_valid` when there is one. -/
  xrsp : Option Answer
  /-- R35, R49: the expanders' registers. -/
  mem : Memory
  /-- R38, ghost `dev_state[0..3]`. -/
  devState : Vector DevState 4
  /-- R39, ghost `contract_violated`. -/
  contractViolated : Bool
  /-- The model's own ghost: a command was accepted at some time (R172, log 17). -/
  everAccepted : Bool
  /-- The model's own: the coming moves of the host and the transport and the engine's turns among them, first one first
  (logs 1, 2). -/
  env : List EnvMove
  /-- The model's own: how many free values have been drawn (log 11). -/
  freeCount : Nat
  deriving DecidableEq, Repr

/-- No step faults: the engine has no traps or exceptions, and every outcome is reported in the response registers
(R135, R93). Nothing raises this; safe. -/
inductive Fault where
  deriving DecidableEq, Repr

/-- Why a step or a meaning gives no outcome. -/
inductive Refusal where
  /-- An arm of exec whose instruction has no meaning yet; raised by no arm now. Safe: nothing can be proved of the step. -/
  | notModelled (mnemonic : String)
  /-- U11: a frame the engine never sends (byte 0 outside 0x40..0x47, byte 1 above 0x0A, a read request whose byte 2 is not
  0x00). Raised by FRAME_WRITE and FRAME_READ with a register field above 0xA, and by `step` when `tx` holds no frame of the
  opcode table, which no run reaches. Safe: nothing can be proved of the step. -/
  | frameNeverSent
  deriving DecidableEq, Repr

/-- R31: nine zero bytes. -/
def RegisterConfig.zero : RegisterConfig :=
  { direction := 0, polarity := 0, interruptEnable := 0, defaultCompare := 0, interruptControl := 0, configuration := 0,
    pullUp := 0, port := 0, outputLatch := 0 }

/-- Three zero bytes: the reset value of `tx` and `rx` (R40) and the pre-cleared `rx` (R27). -/
def Frame.zero : Frame := { b0 := 0, b1 := 0, b2 := 0 }

/-- R40: the latches after reset. -/
def Latches.reset : Latches := { op := 0, reg := 0, val := 0, addr := 0, rc := RegisterConfig.zero }

/-- R40: the response registers after reset. -/
def Resp.reset : Resp := { valid := false, verified := false, byte := 0, xferOk := false, illegal := false }

/-- R40: the machine right after reset at the start of a run. The signals the host and the transport drive (log 16) and the
model's own fields (logs 2, 11, 17) are the model's choice; no expander register is listed (R37, log 10). -/
def State.reset : State :=
  { cmdValid := false
    cmdWord := 0
    cmdCfg := { address := 0, rc := RegisterConfig.zero }
    resetIn := false
    phase := .idle
    latch := Latches.reset
    tx := Frame.zero
    rx := Frame.zero
    accOk := true
    resp := Resp.reset
    xrsp := none
    mem := []
    devState := Vector.replicate 4 .uninitialized
    contractViolated := false
    everAccepted := false
    env := []
    freeCount := 0 }

end Sys2Proof.Machine
end

