-- ==== Sys2Proof/Machine/Flags.lean ====
section
/-! DEFINITION. The flag computations (10_state.md R23, R28, R34; 41_register_ops.md R109) and the ways a command can end
(60_exceptions.md R140). -/

namespace Sys2Proof.Machine

/-- R104, R106, R123: `resp.verified`, exact 8-bit equality of the byte read back and the byte expected. -/
def verifiedFlag (readBack expected : Byte) : Bool := readBack == expected

/-- R28: `acc_ok <- acc_ok && !fail`. -/
def accumulateOk (accOk fail : Bool) : Bool := accOk && !fail

/-- R102: the response a finish writes. -/
def finishResp (verified : Bool) (b : Byte) (xferOk : Bool) : Resp :=
  { valid := true, verified := verified, byte := b, xferOk := xferOk, illegal := false }

/-- R139: the response a rejected command leaves. -/
def illegalResp : Resp := { valid := true, verified := false, byte := 0x00#8, xferOk := false, illegal := true }

/-- R140: the ways a command can end. -/
inductive CommandEnd where
  | rejected
  | cleanWrite
  | mismatch
  | failureVerifyPassed
  | failureAndMismatch
  | cleanRead
  | failedRead
  deriving DecidableEq, Repr

/-- R140: the row of a response; `isRead` says whether the command was REGRD or PORTRD, which the host knows. -/
def commandEnd (isRead : Bool) (r : Resp) : Option CommandEnd :=
  if r.valid = false then none
  else
    match r.illegal, isRead, r.xferOk, r.verified with
    | true, _, false, false => some .rejected
    | true, _, _, _ => none
    | false, false, true, true => some .cleanWrite
    | false, false, true, false => some .mismatch
    | false, false, false, true => some .failureVerifyPassed
    | false, false, false, false => some .failureAndMismatch
    | false, true, true, false => some .cleanRead
    | false, true, false, false => some .failedRead
    | false, true, _, true => none

end Sys2Proof.Machine
end

