-- ==== Sys2Proof/Machine/Operands.lean ====
section
/-! DEFINITION. The operand forms: what each command latches (10_state.md R26, 30_encoding.md R76), the frame of each phase
(41_register_ops.md R100 `FrameFor`, 42_init.md R121) and the numbers of the phases (R24). -/

namespace Sys2Proof.Machine

/-- R24: the 4-bit value of a phase. -/
def Phase.code : Phase → BitVec 4
  | .idle => 0
  | .initW k => BitVec.ofNat 4 (k.val + 1)
  | .initRb => 10
  | .wrW => 11
  | .wrRb => 12
  | .rd => 13

/-- R121 `InitReg(k)`. -/
def initReg (k : Fin 9) : RegisterId :=
  match k with
  | 0 => .configuration
  | 1 => .direction
  | 2 => .inputPolarity
  | 3 => .interruptEnable
  | 4 => .defaultCompare
  | 5 => .interruptControl
  | 6 => .pullUp
  | 7 => .port
  | 8 => .outputLatch

/-- R121 `InitVal(k)`, over the latched RegisterConfig. -/
def initVal (rc : RegisterConfig) (k : Fin 9) : Byte :=
  match k with
  | 0 => rc.configuration
  | 1 => rc.direction
  | 2 => rc.polarity
  | 3 => rc.interruptEnable
  | 4 => rc.defaultCompare
  | 5 => rc.interruptControl
  | 6 => rc.pullUp
  | 7 => rc.port
  | 8 => rc.outputLatch

/-- R100 `FrameFor(P)`: the frame outstanding in a phase; in IDLE there is none (R25). -/
def frameFor (p : Phase) (l : Latches) : Option Frame :=
  match p with
  | .idle => none
  | .initW k => some (encodeWrite l.addr (initReg k).number (initVal l.rc k))
  | .initRb => some (encodeRead l.addr RegisterId.configuration.number)
  | .wrW => some (encodeWrite l.addr l.reg l.val)
  | .wrRb => some (encodeRead l.addr l.reg)
  | .rd => some (encodeRead l.addr l.reg)

/-- R108: the phase that follows the k-th write of INIT. -/
def afterInitWrite (k : Fin 9) : Phase :=
  if h : k.val < 8 then .initW ⟨k.val + 1, by omega⟩ else .initRb

/-- R26, R120: what INIT latches: the side-band, and 0x00 in `L.val`; `L.reg` keeps its value (log 26). -/
def latchInit (c : DeviceConfig) (l : Latches) : Latches :=
  { l with op := 0x1#4, val := 0x00#8, addr := c.address, rc := c.rc }

/-- R26, R76: what the other four commands latch; `L.rc` is left unchanged. -/
def latchAccess (op : BitVec 4) (reg : RegNum) (value : Byte) (c : DeviceConfig) (l : Latches) : Latches :=
  { l with op := op, reg := reg, val := value, addr := c.address }

end Sys2Proof.Machine
end

