-- ==== Sys2Proof/Machine/Ops.lean ====
section
/-! DEFINITION. The operations the steps are built from: the expander's registers, the ghost marks, Enter, Accept, Finish,
Complete (41_register_ops.md R100 to R102), the rejection of a command (60_exceptions.md R139: the one "exception" of this
hardware, from which there is no return, R143) and engine reset (70_reset_and_hazards.md R160, R161). -/

namespace Sys2Proof.Machine

/-! ## The ports' derived signals (R22, R29) -/

/-- R22: `cmd_ready`. -/
def cmdReady (s : State) : Bool := s.phase == .idle

/-- R29: `xreq_valid`. -/
def xreqValid (s : State) : Bool := s.phase != .idle

/-- R29: `xrsp_valid`; the pending answer determines `xrsp_fail`, `xrsp_rx` and `xrsp_len` (log 9). -/
def xrspValid (s : State) : Bool := s.xrsp.isSome

/-- R29: `xreq_tx`. -/
def xreqTx (s : State) : Frame := s.tx

/-- R29: `xreq_len`, always 3. -/
def xreqLen (_ : State) : Byte := Config.frameLen

/-- R41: all the host can observe, `cmd_ready` and `resp.*`. -/
def hostView (s : State) : Bool × Resp := (cmdReady s, s.resp)

/-! ## The expanders' registers (R49, R52) -/

/-- R49: the location (a, r), as one number (log 14). -/
def devKey (address : DeviceAddress) (reg : RegNum) : Nat := 16 * address.toNat + reg.toNat

/-- R49: the keys of DevSpace's 44 locations. -/
def inDevSpace (key : Nat) : Bool := decide (key < 64) && decide (key % 16 ≤ 10)

/-- What an unlisted location holds in the list: nothing written yet (R37, log 10). -/
def Memory.unlisted : Option Byte := none

/-- The byte written last to a location, if any. -/
def Memory.lookup : Memory → Nat → Option Byte
  | [], _ => Memory.unlisted
  | c :: m, key => if c.1 = key then some c.2 else Memory.lookup m key

/-- Write a byte, keeping the cells sorted by key. -/
def Memory.put : Memory → Nat → Byte → Memory
  | [], key, v => [(key, v)]
  | c :: m, key, v =>
    if key < c.1 then (key, v) :: c :: m
    else if key = c.1 then (key, v) :: m
    else c :: Memory.put m key v

/-- The canonical form: keys strictly rising, each a location of DevSpace. No cell equals what an unlisted location reads
as, since that is `none`. -/
abbrev Memory.wf (m : Memory) : Prop :=
  m.Pairwise (fun c d => c.1 < d.1) ∧ ∀ c ∈ m, inDevSpace c.1 = true

/-- R11, R52 `MemRead((a, r), 1)`: the last byte written, or `DevInit[a][r]` (R63). -/
def devRead (m : Memory) (address : DeviceAddress) (reg : RegNum) : Byte :=
  (m.lookup (devKey address reg)).getD (Config.devInit (devKey address reg))

/-- R11, R52 `MemWrite((a, r), 1, v)`. -/
def devWrite (m : Memory) (address : DeviceAddress) (reg : RegNum) (v : Byte) : Memory :=
  m.put (devKey address reg) v

/-- The changes an arbitrary device makes, first one first (log 9). -/
def applyChanges : List DeviceChange → Memory → Memory
  | [], m => m
  | c :: cs, m => applyChanges cs (devWrite m c.address c.reg.number c.value)

/-! ## Ghost state (R38, R39) -/

/-- R38: `dev_state[a]`. -/
def devStateAt (s : State) (a : DeviceAddress) : DevState := s.devState[a.toNat]'a.isLt

/-- R125: `dev_state[a]` after an INIT whose verify gave `verified`. -/
def markDevice (a : DeviceAddress) (verified : Bool) (s : State) : State :=
  { s with devState := s.devState.set a.toNat (if verified then .initialized else .uninitialized) a.isLt }

/-- R39, R152: the mark for a command accepted for address `a`. -/
def contractMark (isInit : Bool) (a : DeviceAddress) (s : State) : Bool :=
  s.contractViolated || (!isInit && devStateAt s a == .uninitialized)

/-! ## Accept (R100) -/

/-- R100 `Enter(P)`: phase, frame, and the pre-cleared receive buffer (R27). -/
def enter (p : Phase) (s : State) : State :=
  { s with phase := p, tx := (frameFor p s.latch).getD s.tx, rx := Frame.zero }

/-- R100, the part every legal command shares: the command is taken (log 4), `resp.valid` cleared, the latches loaded,
`acc_ok` set, the ghost mark updated, and the first exchange issued in phase `p`. -/
def acceptCommand (l : Latches) (isInit : Bool) (p : Phase) (s : State) : State :=
  enter p
    { s with
      cmdValid := false
      everAccepted := true
      resp := { s.resp with valid := false }
      latch := l
      accOk := true
      contractViolated := contractMark isInit l.addr s }

/-- R139 `raise Illegal`: the command is consumed, the response is written, everything else is as it was. -/
def raiseIllegal (s : State) : State :=
  { s with cmdValid := false, everAccepted := true, resp := illegalResp }

/-- R22, R167: a command is accepted in IDLE only; presented while the engine is busy it stays presented (log 5). -/
def whenReady (accepted : State) (s : State) : Host.Outcome State Fault Refusal :=
  match s.phase with
  | .idle => .next accepted
  | _ => .next s

/-! ## Completion and finish (R101, R102) -/

/-- R102 `Finish(verified, b)`. -/
def finish (verified : Bool) (b : Byte) (s : State) : State :=
  { s with resp := finishResp verified b s.accOk, phase := .idle }

/-- R101, its first two lines: the bytes and the status of the completion arrive, and the answer is used up. -/
def receive (c : Completion) (s : State) : State :=
  { s with rx := c.rx, accOk := accumulateOk s.accOk c.fail, xrsp := none }

/-- R101, its `case phase of`: what follows once the completion has arrived. INIT's finish also updates `dev_state` (R125).
With no exchange outstanding (IDLE) a completion has no effect (R161). -/
def advance (s : State) : State :=
  match s.phase with
  | .idle => s
  | .initW k => enter (afterInitWrite k) s
  | .initRb =>
    finish (verifiedFlag (decodeReadResponse s.rx) s.latch.rc.configuration) (decodeReadResponse s.rx)
      (markDevice s.latch.addr (verifiedFlag (decodeReadResponse s.rx) s.latch.rc.configuration) s)
  | .wrW => enter .wrRb s
  | .wrRb => finish (verifiedFlag (decodeReadResponse s.rx) s.latch.val) (decodeReadResponse s.rx) s
  | .rd => finish false (decodeReadResponse s.rx) s

/-- R101 `Complete(fail, rxb, rxlen)`; `rxlen` is ignored (92 D7). -/
def complete (c : Completion) (s : State) : State := advance (receive c s)

/-! ## The transport's answers (R12, R52, R64) -/

/-- R64: the value CorruptingDevice stores, `g(v)`. The free mask is replaced by 1 where it is 0, so `g(v) != v` for every
`v`, and every such `g` is some mask (log 12). -/
def corrupted (v : Byte) : Byte :=
  v ^^^ (if Config.corruptMask v = 0 then 1#8 else Config.corruptMask v)

/-- R52, U2: a received byte nobody gives a meaning. -/
def anyByte (s : State) (k : Nat) : Byte := Config.anyByte (s.freeCount + k)

/-- What the transport and the expander do with a write frame: the completion, and the state with the expander changed.
IdealDevice stores the value (R52), CorruptingDevice stores `g(value)` (R64); both answer three bytes under no law. -/
def answerWrite (a : Answer) (address : DeviceAddress) (reg : RegNum) (value : Byte) (s : State) : Completion × State :=
  match a with
  | .idealDevice =>
    ({ fail := false, rx := { b0 := anyByte s 0, b1 := anyByte s 1, b2 := anyByte s 2 }, len := 3#8 },
      { s with mem := devWrite s.mem address reg value, freeCount := s.freeCount + 3 })
  | .corruptingDevice =>
    ({ fail := false, rx := { b0 := anyByte s 0, b1 := anyByte s 1, b2 := anyByte s 2 }, len := 3#8 },
      { s with mem := devWrite s.mem address reg (corrupted value), freeCount := s.freeCount + 3 })
  | .general c changes => (c, { s with mem := applyChanges changes s.mem })

/-- What the transport and the expander do with a read request. Both reference devices return the register in byte 2 and
change nothing (R52, R54, R64). -/
def answerRead (a : Answer) (address : DeviceAddress) (reg : RegNum) (s : State) : Completion × State :=
  match a with
  | .idealDevice =>
    ({ fail := false, rx := { b0 := anyByte s 0, b1 := anyByte s 1, b2 := devRead s.mem address reg }, len := 3#8 },
      { s with freeCount := s.freeCount + 2 })
  | .corruptingDevice =>
    ({ fail := false, rx := { b0 := anyByte s 0, b1 := anyByte s 1, b2 := devRead s.mem address reg }, len := 3#8 },
      { s with freeCount := s.freeCount + 2 })
  | .general c changes => (c, { s with mem := applyChanges changes s.mem })

/-- One exchange of a frame (R12, R101): `answered` says what the transport does with it. With no request outstanding an
answer is ignored (R161, log 7); with no answer yet the engine waits (R147); else the answer completes the exchange. -/
def exchange (answered : Answer → State → Completion × State) (s : State) : Host.Outcome State Fault Refusal :=
  match s.phase, s.xrsp with
  | .idle, _ => .next { s with xrsp := none }
  | _, none => .next s
  | _, some a => .next (complete (answered a s).1 (answered a s).2)

/-! ## Reset (R160, R161) -/

/-- The expander's registers if the outstanding frame takes effect: as the transport's answer says where there is one, else the
value on the wire in the register of a write frame (R161, log 13). -/
def memIfApplied (s : State) : Memory :=
  match decodeFrame s.tx, s.xrsp with
  | .ok (.frameWrite a r v), none => devWrite s.mem a r v
  | .ok (.frameWrite a r v), some ans => (answerWrite ans a r v s).2.mem
  | .ok (.frameRead a r), some ans => (answerRead ans a r s).2.mem
  | _, _ => s.mem

/-- R161, U12: the expander's registers when reset cuts off the outstanding exchange: it took effect or not, and the model does
not say which (log 13). -/
def memAfterCutOff (s : State) : Memory :=
  match s.phase with
  | .idle => s.mem
  | _ => if Config.cutOffApplied s.freeCount then memIfApplied s else s.mem

/-- R160: every engine register takes its value of R40 and `dev_state` is Uninitialized; `contract_violated`, the expanders'
registers (R162, R161) and what the host drives are kept, and the request is withdrawn. -/
def resetEngine (s : State) : State :=
  { s with
    resetIn := false
    phase := .idle
    latch := Latches.reset
    tx := Frame.zero
    rx := Frame.zero
    accOk := true
    resp := Resp.reset
    xrsp := none
    mem := memAfterCutOff s
    devState := Vector.replicate 4 .uninitialized
    freeCount := s.freeCount + 1 }

end Sys2Proof.Machine
end

