-- ==== Sys2Proof/Machine/InitSequencer.lean ====
section
/-! DEFINITION. INIT (42_init.md R120): its accept step. Its ten exchanges follow in the order of R121 (`initReg`, `initVal`,
`afterInitWrite`), each one a wire frame's step. -/

namespace Sys2Proof.Machine

/-- R120 INIT. Allowed whenever the engine is IDLE (R127). -/
def execInit (s : State) : Host.Outcome State Fault Refusal :=
  whenReady (acceptCommand (latchInit s.cmdCfg s.latch) true (.initW 0) s) s

end Sys2Proof.Machine
end

