-- ==== Sys2Proof/Machine/RegisterOps.lean ====
section
/-! DEFINITION. The four register operations (41_register_ops.md R103 to R106): their accept step. The exchanges that follow
are the wire frames' (Machine/WireFrames.lean). -/

namespace Sys2Proof.Machine

/-- R103 REGRD. A register field above 0xA is illegal (R139, log 23). -/
def execRegrd (reg : RegNum) (s : State) : Host.Outcome State Fault Refusal :=
  if regNamed reg then whenReady (acceptCommand (latchAccess 0x2#4 reg 0x00#8 s.cmdCfg s.latch) false .rd s) s
  else whenReady (raiseIllegal s) s

/-- R104 REGWR. A register field above 0xA is illegal (R139, log 23); a read-only register is not refused (R36). -/
def execRegwr (reg : RegNum) (value : Byte) (s : State) : Host.Outcome State Fault Refusal :=
  if regNamed reg then whenReady (acceptCommand (latchAccess 0x3#4 reg value s.cmdCfg s.latch) false .wrW s) s
  else whenReady (raiseIllegal s) s

/-- R105 PORTRD: as REGRD of register 9. -/
def execPortrd (s : State) : Host.Outcome State Fault Refusal :=
  whenReady (acceptCommand (latchAccess 0x4#4 RegisterId.port.number 0x00#8 s.cmdCfg s.latch) false .rd s) s

/-- R106 PORTWR: as REGWR of register 9, with the raw byte of the PortValue. -/
def execPortwr (value : Byte) (s : State) : Host.Outcome State Fault Refusal :=
  whenReady (acceptCommand (latchAccess 0x5#4 RegisterId.port.number value s.cmdCfg s.latch) false .wrW s) s

end Sys2Proof.Machine
end

