-- ==== Sys2Proof/Machine/WireFrames.lean ====
section
/-! DEFINITION. The two wire frames (30_encoding.md R72, R73): the exchange of a frame with the expander and its completion
(00_scope.md R12, 20_memory.md R52, 41_register_ops.md R101; log 6). -/

namespace Sys2Proof.Machine

/-- FRAME_WRITE: the expander is sent `value` for its register `reg`; U11: there is no register above 0xA. -/
def execFrameWrite (address : DeviceAddress) (reg : RegNum) (value : Byte) (s : State) :
    Host.Outcome State Fault Refusal :=
  if regNamed reg then exchange (fun a => answerWrite a address reg value) s else .refused .frameNeverSent

/-- FRAME_READ: the expander is asked for its register `reg`; U11: there is no register above 0xA. -/
def execFrameRead (address : DeviceAddress) (reg : RegNum) (s : State) : Host.Outcome State Fault Refusal :=
  if regNamed reg then exchange (fun a => answerRead a address reg) s else .refused .frameNeverSent

end Sys2Proof.Machine
end

