-- ==== Sys2Proof/Machine/Dispatch.lean ====
section
/-! DEFINITION. One arm per instruction. -/

namespace Sys2Proof.Machine

def exec (i : Instr) (s : State) : Host.Outcome State Fault Refusal :=
  match i with
  | .init => Sys2Proof.Machine.execInit s
  | .regrd reg => Sys2Proof.Machine.execRegrd reg s
  | .regwr reg value => Sys2Proof.Machine.execRegwr reg value s
  | .portrd => Sys2Proof.Machine.execPortrd s
  | .portwr value => Sys2Proof.Machine.execPortwr value s
  | .frameWrite address reg value => Sys2Proof.Machine.execFrameWrite address reg value s
  | .frameRead address reg => Sys2Proof.Machine.execFrameRead address reg s

end Sys2Proof.Machine
end

