-- ==== Sys2Proof/Machine/Schedule.lean ====
section
/-! DEFINITION. Whose move it is (00_scope.md R6, R14; log 1), and the moves of the host and the transport (log 2). -/

namespace Sys2Proof.Machine

/-- The next move of the machine. -/
inductive Turn where
  /-- R160: the engine is reset. -/
  | resetTurn
  /-- The engine acts on an instruction: it accepts a command (R100) or an exchange of its frame completes (R101). -/
  | runInstr (i : Instr)
  /-- R139: the engine rejects the presented command. -/
  | rejectTurn
  /-- `tx` holds no frame of the opcode table (U11). -/
  | strayFrame
  /-- The host or the transport moves, or the engine's turn passes with no step of it enabled. -/
  | envTurn
  deriving DecidableEq, Repr

/-- R70, R100, R139: what becomes of a presented word. -/
def turnOfCommand (w : CmdWord) : Turn :=
  match decodeCmd w with
  | .ok i => .runInstr i
  | .error _ => .rejectTurn

/-- R84, R101: what becomes of the frame that is answered. -/
def turnOfFrame (f : Frame) : Turn :=
  match decodeFrame f with
  | .ok i => .runInstr i
  | .error _ => .strayFrame

/-- Whether the host or the transport moves next (log 1). -/
def envNext (s : State) : Bool :=
  match s.env with
  | [] => false
  | .present _ _ :: _ => true
  | .withdraw :: _ => true
  | .reset :: _ => true
  | .answer _ :: _ => true
  | .letEngine :: _ => false

/-- Whether it is the engine's turn, with no reset asserted. -/
def engineNext (s : State) : Bool := !s.resetIn && !envNext s

/-- An asserted reset comes first (R160). Else the next entry of `env` says who moves (log 1); when it is the engine's turn it
takes the step it has enabled: accept in IDLE with a command presented (R100), a completion with a request outstanding and
answered (R101). With none enabled its turn passes. -/
def turn (s : State) : Turn :=
  if s.resetIn then .resetTurn
  else if envNext s then .envTurn
  else
    match s.phase with
    | .idle => if s.cmdValid then turnOfCommand s.cmdWord else .envTurn
    | _ =>
      match s.xrsp with
      | none => .envTurn
      | some _ => turnOfFrame s.tx

/-- The engine's turn is used up. -/
def takeTurn (s : State) : State := { s with env := s.env.tail }

/-- R29: the transport answers the outstanding request, once; with none outstanding the answer is ignored (R161, log 7). -/
def answerRequest (a : Answer) (s : State) : State :=
  match s.phase, s.xrsp with
  | .idle, _ => s
  | _, some _ => s
  | _, none => { s with xrsp := some a }

/-- The effect of one entry of `env`. -/
def applyMove (m : EnvMove) (s : State) : State :=
  match m with
  | .present w c => { s with cmdValid := true, cmdWord := w, cmdCfg := c }
  | .withdraw => { s with cmdValid := false }
  | .reset => { s with resetIn := true }
  | .answer a => answerRequest a s
  | .letEngine => s

/-- The next entry of `env` takes effect. With none to come nothing moves: in IDLE the engine waits for a command (R164), in any
other phase it waits for ever for its transport (R147). -/
def envStep (s : State) : State :=
  match s.env with
  | [] => s
  | m :: ms => applyMove m { s with env := ms }

/-- The engine's turn put first, where it is not there already. -/
def letEngineFirst (e : List EnvMove) : List EnvMove :=
  match e with
  | [] => []
  | .letEngine :: ms => .letEngine :: ms
  | m :: ms => .letEngine :: m :: ms

/-- The fetch of a command word set up: no reset, the engine's turn, IDLE, the word presented with the side-band as it stands (log 3). -/
def placeCommand (w : CmdWord) (s : State) : State :=
  { s with resetIn := false, phase := .idle, cmdValid := true, cmdWord := w, env := letEngineFirst s.env }

/-- The exchange of a frame set up: no reset, the engine's turn, the frame outstanding in the phase that sends such a frame, and an answer there,
IdealDevice's if there was none (log 3). -/
def placeFrame (f : Frame) (s : State) : State :=
  { s with
    resetIn := false
    phase := if controlRead f.b0 then .rd else .wrW
    tx := f
    xrsp := some (s.xrsp.getD .idealDevice)
    env := letEngineFirst s.env }

/-- The code word of a table row placed where `step` takes its next instruction from. -/
def placeCode (c : CodeWord) (s : State) : State :=
  match c with
  | .cmd w => placeCommand w s
  | .wire f => placeFrame f s

end Sys2Proof.Machine
end

