-- ==== Sys2Proof/Machine/Step.lean ====
section
/-! DEFINITION. One step of the machine: one move of one agent (00_scope.md R6). -/

namespace Sys2Proof.Machine

/-- One step: the move of the agent whose turn it is. A step of the engine uses up its turn. -/
def step (s : State) : Host.Outcome State Fault Refusal :=
  match turn s with
  | .resetTurn => .next (resetEngine s)
  | .runInstr i => exec i (takeTurn s)
  | .rejectTurn => .next (raiseIllegal (takeTurn s))
  | .strayFrame => .refused .frameNeverSent
  | .envTurn => .next (envStep s)

/-- The instruction whose bits are `w`, numbered as spec/opcode_table.json numbers them, placed as the machine's next
instruction (log 3). A row has 16 bits (a command) or 24 (a frame). -/
def State.withFetchWord (s : State) (nbits w : Nat) : State :=
  match tableCode nbits w with
  | none => s
  | some c => placeCode c s

end Sys2Proof.Machine
end

