-- ==== Sys2Proof/Machine/Assembler.lean ====
section
/-! DEFINITION. The assembler and disassembler of 30_encoding.md R79 to R82: source lines as data, their words, and their
text (the points of the text R79 leaves open are in log 22). No step uses them: they say how a host writes its commands. -/

namespace Sys2Proof.Machine

/-! ## Names (R80) -/

/-- R80: the register names. -/
def registerName : RegisterId → String
  | .direction => "DIRECTION"
  | .inputPolarity => "INPUT_POLARITY"
  | .interruptEnable => "INTERRUPT_ENABLE"
  | .defaultCompare => "DEFAULT_COMPARE"
  | .interruptControl => "INTERRUPT_CONTROL"
  | .configuration => "CONFIGURATION"
  | .pullUp => "PULL_UP"
  | .interruptFlag => "INTERRUPT_FLAG"
  | .interruptCapture => "INTERRUPT_CAPTURE"
  | .port => "PORT"
  | .outputLatch => "OUTPUT_LATCH"

/-- R35: the registers in the order of their numbers. -/
def allRegisters : List RegisterId :=
  [.direction, .inputPolarity, .interruptEnable, .defaultCompare, .interruptControl, .configuration, .pullUp,
    .interruptFlag, .interruptCapture, .port, .outputLatch]

/-- R35: the register with a number, if one has it. -/
def registerOfNumber (n : RegNum) : Option RegisterId := allRegisters.find? (fun r => r.number == n)

/-- R79: the side-band fields a `.cfg` line can name. -/
inductive CfgField where
  | address
  | direction
  | polarity
  | interruptEnable
  | defaultCompare
  | interruptControl
  | configuration
  | pullUp
  | port
  | outputLatch
  deriving DecidableEq, Repr

/-- R31, R79: the field names as they are written. -/
def cfgFieldNames : List (String × CfgField) :=
  [("address", .address), ("direction", .direction), ("polarity", .polarity), ("interrupt_enable", .interruptEnable),
    ("default_compare", .defaultCompare), ("interrupt_control", .interruptControl), ("configuration", .configuration),
    ("pull_up", .pullUp), ("port", .port), ("output_latch", .outputLatch)]

/-! ## Source lines and their words (R79, R82) -/

/-- R79: a source line, its operands as the numbers written. -/
inductive AsmLine where
  | command (i : Instr)
  | cfg (sets : List (CfgField × Nat))
  | word (w : CmdWord)
  | blank
  deriving DecidableEq, Repr

/-- R79: an operand in range, or an assembly error. -/
def asmOperand (width bound n : Nat) : Option (BitVec width) := if n < bound then some (BitVec.ofNat width n) else none

/-- R79: a register operand, 0..10. -/
def asmReg (n : Nat) : Option RegNum := asmOperand 4 11 n

/-- R79: a byte operand, 0..255. -/
def asmByte (n : Nat) : Option Byte := asmOperand 8 256 n

/-- R79, R32: one field of a `.cfg` line; an address above 3 is refused, not masked. -/
def setCfgField (f : CfgField) (n : Nat) (c : DeviceConfig) : Option DeviceConfig :=
  match f with
  | .address => (asmOperand 2 4 n).map (fun a => { c with address := a })
  | .direction => (asmByte n).map (fun v => { c with rc := { c.rc with direction := v } })
  | .polarity => (asmByte n).map (fun v => { c with rc := { c.rc with polarity := v } })
  | .interruptEnable => (asmByte n).map (fun v => { c with rc := { c.rc with interruptEnable := v } })
  | .defaultCompare => (asmByte n).map (fun v => { c with rc := { c.rc with defaultCompare := v } })
  | .interruptControl => (asmByte n).map (fun v => { c with rc := { c.rc with interruptControl := v } })
  | .configuration => (asmByte n).map (fun v => { c with rc := { c.rc with configuration := v } })
  | .pullUp => (asmByte n).map (fun v => { c with rc := { c.rc with pullUp := v } })
  | .port => (asmByte n).map (fun v => { c with rc := { c.rc with port := v } })
  | .outputLatch => (asmByte n).map (fun v => { c with rc := { c.rc with outputLatch := v } })

/-- R79: all fields of a `.cfg` line, first one first. -/
def setCfgFields : List (CfgField × Nat) → DeviceConfig → Option DeviceConfig
  | [], c => some c
  | (f, n) :: rest, c =>
    match setCfgField f n c with
    | none => none
    | some c' => setCfgFields rest c'

/-- R82: the command word of a host command; a wire frame has none, and an operand out of range is an assembly error. -/
def commandWord (i : Instr) : Option CmdWord :=
  if i.wellFormed then
    match encode i with
    | .cmd w => some w
    | .wire _ => none
  else none

/-- R79: the commands of a source text, each with the side-band in force: what the host presents, in order. R79 does not say
what becomes of the other lines when one line is an assembly error: the model then gives no word at all, for the whole text
(DESIGN CHOICE, log 22). -/
def assembleFrom : DeviceConfig → List AsmLine → Option (List (CmdWord × DeviceConfig))
  | _, [] => some []
  | c, .command i :: rest =>
    match commandWord i, assembleFrom c rest with
    | some w, some out => some ((w, c) :: out)
    | _, _ => none
  | c, .cfg sets :: rest =>
    match setCfgFields sets c with
    | none => none
    | some c' => assembleFrom c' rest
  | c, .word w :: rest =>
    match assembleFrom c rest with
    | some out => some ((w, c) :: out)
    | none => none
  | c, .blank :: rest => assembleFrom c rest

/-- R79: every field is 0 before the first `.cfg`. -/
def assemble (lines : List AsmLine) : Option (List (CmdWord × DeviceConfig)) :=
  assembleFrom { address := 0, rc := RegisterConfig.zero } lines

/-- The moves of one exchange: the transport's answer, and the engine's turn in which it completes. -/
def exchangeMoves (a : Answer) : List EnvMove := [.answer a, .letEngine]

/-- The moves of one command: the host presents it, the engine accepts it, and its exchanges follow. -/
def commandMoves (word : CmdWord) (cfg : DeviceConfig) (answers : List Answer) : List EnvMove :=
  .present word cfg :: .letEngine :: answers.flatMap exchangeMoves

/-- The moves of an assembled text, each word with the transport's answers to its exchanges (log 3). -/
def programMoves (program : List ((CmdWord × DeviceConfig) × List Answer)) : List EnvMove :=
  program.flatMap (fun p => commandMoves p.1.1 p.1.2 p.2)

/-- R79, R82: the line a word disassembles to; an illegal word is a `.word` line. -/
def disassemble (w : CmdWord) : AsmLine :=
  match decodeCmd w with
  | .ok i => .command i
  | .error _ => .word w

/-! ## Text (R79; log 22) -/

/-- The value of a digit, in a base up to 16; letters in either case. -/
def digitValue (base : Nat) (c : Char) : Option Nat :=
  let v := if '0' ≤ c ∧ c ≤ '9' then c.toNat - '0'.toNat
    else if 'a' ≤ c ∧ c ≤ 'f' then c.toNat - 'a'.toNat + 10
    else if 'A' ≤ c ∧ c ≤ 'F' then c.toNat - 'A'.toNat + 10
    else base
  if v < base then some v else none

/-- Digits read from left to right onto `acc`. -/
def digitsValue (base : Nat) : List Char → Nat → Option Nat
  | [], acc => some acc
  | c :: cs, acc =>
    match digitValue base c with
    | none => none
    | some d => digitsValue base cs (base * acc + d)

/-- A number with at least one digit. -/
def numberIn (base : Nat) (cs : List Char) : Option Nat := if cs.isEmpty then none else digitsValue base cs 0

/-- R79: a number in decimal or `0x` hex, and in `0b` binary where `binary` allows it. -/
def parseNumber (binary : Bool) (cs : List Char) : Option Nat :=
  match cs with
  | '0' :: 'x' :: rest => numberIn 16 rest
  | '0' :: 'b' :: rest => if binary then numberIn 2 rest else none
  | _ => numberIn 10 cs

/-- R79: `<reg>`, a name of R80 or a number 0..10. -/
def parseReg (cs : List Char) : Option RegNum :=
  match allRegisters.find? (fun r => (registerName r).toList == cs) with
  | some r => some r.number
  | none => (parseNumber false cs).bind asmReg

/-- R79: `<byte>`. -/
def parseByte (cs : List Char) : Option Byte := (parseNumber true cs).bind asmByte

/-- The characters between operands. -/
def isBlankChar (c : Char) : Bool := c == ' ' || c == '\t' || c == '\r'

/-- A text without its leading blanks. -/
def dropBlanks (cs : List Char) : List Char := cs.dropWhile isBlankChar

/-- A text without blanks at either end. -/
def trimBlanks (cs : List Char) : List Char := (dropBlanks (dropBlanks cs).reverse).reverse

/-- A text cut at each occurrence of a character. -/
def cutAt (sep : Char) : List Char → List (List Char)
  | [] => [[]]
  | c :: cs =>
    if c = sep then [] :: cutAt sep cs
    else
      match cutAt sep cs with
      | [] => [[c]]
      | w :: ws => (c :: w) :: ws

/-- The operands of a line: nothing, or texts between commas. -/
def operandsOf (cs : List Char) : List (List Char) :=
  if (trimBlanks cs).isEmpty then [] else (cutAt ',' cs).map trimBlanks

/-- R79: `<field>=<byte>`. -/
def parseCfgSet (cs : List Char) : Option (CfgField × Nat) :=
  match (cutAt '=' cs).map trimBlanks with
  | [name, value] =>
    match cfgFieldNames.find? (fun p => p.1.toList == name), parseNumber true value with
    | some p, some n => some (p.2, n)
    | _, _ => none
  | _ => none

/-- R79: all sets of a `.cfg` line. R79 shows at least one: a `.cfg` line with none is accepted and changes nothing (DESIGN
CHOICE, log 22). -/
def parseCfgSets : List (List Char) → Option (List (CfgField × Nat))
  | [] => some []
  | cs :: rest =>
    match parseCfgSet cs, parseCfgSets rest with
    | some p, some ps => some (p :: ps)
    | _, _ => none

/-- R79: the line of a mnemonic and its operands; an unknown mnemonic, a missing or an extra operand is an assembly error (DESIGN
CHOICE, log 22). -/
def parseOperation (mnemonic : List Char) (operands : List (List Char)) : Option AsmLine :=
  if mnemonic == "INIT".toList then
    if operands.isEmpty then some (.command .init) else none
  else if mnemonic == "PORTRD".toList then
    if operands.isEmpty then some (.command .portrd) else none
  else if mnemonic == "REGRD".toList then
    match operands with
    | [r] => (parseReg r).map (fun r => .command (.regrd r))
    | _ => none
  else if mnemonic == "REGWR".toList then
    match operands with
    | [r, v] =>
      match parseReg r, parseByte v with
      | some r, some v => some (.command (.regwr r v))
      | _, _ => none
    | _ => none
  else if mnemonic == "PORTWR".toList then
    match operands with
    | [v] => (parseByte v).map (fun v => .command (.portwr v))
    | _ => none
  else if mnemonic == ".word".toList then
    match operands with
    | [v] => ((parseNumber true v).bind (asmOperand 16 65536)).map .word
    | _ => none
  else if mnemonic == ".cfg".toList then (parseCfgSets operands).map .cfg
  else none

/-- R79: one source line; `;` starts a comment. -/
def parseLine (text : List Char) : Option AsmLine :=
  let line := dropBlanks (text.takeWhile (fun c => c != ';'))
  if line.isEmpty then some .blank
  else
    parseOperation (line.takeWhile (fun c => !isBlankChar c))
      (operandsOf (line.dropWhile (fun c => !isBlankChar c)))

/-- R79: a source text, one line after another; a line that does not parse is an error of the whole text (DESIGN CHOICE,
log 22). -/
def parseLines : List (List Char) → Option (List AsmLine)
  | [] => some []
  | l :: ls =>
    match parseLine l, parseLines ls with
    | some a, some as => some (a :: as)
    | _, _ => none

/-- A source text to the words and side-bands the host presents. -/
def assembleText (text : List Char) : Option (List (CmdWord × DeviceConfig)) :=
  (parseLines (cutAt '\n' text)).bind assemble

/-- A hex digit. -/
def hexDigit (d : BitVec 4) : Char :=
  if d.toNat < 10 then Char.ofNat ('0'.toNat + d.toNat) else Char.ofNat ('A'.toNat + d.toNat - 10)

/-- A byte as `0xNN`. -/
def byteText (v : Byte) : List Char := ['0', 'x', hexDigit (v.extractLsb' 4 4), hexDigit (v.extractLsb' 0 4)]

/-- A word as `0xNNNN` (R79). -/
def wordText (w : CmdWord) : List Char :=
  ['0', 'x', hexDigit (w.extractLsb' 12 4), hexDigit (w.extractLsb' 8 4), hexDigit (w.extractLsb' 4 4),
    hexDigit (w.extractLsb' 0 4)]

/-- R82: a register operand by its name. -/
def regText (r : RegNum) : List Char :=
  match registerOfNumber r with
  | some id => (registerName id).toList
  | none => ['0', 'x', hexDigit r]

/-- R79, R82: the text a command word is disassembled to. -/
def disassemblyText (w : CmdWord) : List Char :=
  match decodeCmd w with
  | .ok .init => "INIT".toList
  | .ok (.regrd r) => "REGRD ".toList ++ regText r
  | .ok (.regwr r v) => "REGWR ".toList ++ regText r ++ ", ".toList ++ byteText v
  | .ok .portrd => "PORTRD".toList
  | .ok (.portwr v) => "PORTWR ".toList ++ byteText v
  | .ok (.frameWrite _ _ _) => ".word ".toList ++ wordText w
  | .ok (.frameRead _ _) => ".word ".toList ++ wordText w
  | .error _ => ".word ".toList ++ wordText w

end Sys2Proof.Machine
end

