-- ==== Sys2Proof/Machine/PortValue.lean ====
section
/-! DEFINITION. The PortValue view of a byte (40_frame_codec.md R90 to R92): a host-side view, no instruction uses it (R91). -/

namespace Sys2Proof.Machine

/-- R90 PortBit: line `i` of a PortValue; an index outside 0..7 is refused (U14, log 25). -/
def portBit (p : Byte) (i : Nat) : Option Bool := if i < 8 then some (p.getLsbD i) else none

/-- R91 PortSetBit: line `i` set to `b`, the other lines as they were; an index outside 0..7 is refused (log 25). -/
def portSetBit (p : Byte) (i : Nat) (b : Bool) : Option Byte :=
  if i < 8 then some ((p &&& ~~~(1#8 <<< i)) ||| ((BitVec.ofBool b).setWidth 8 <<< i)) else none

/-- R92 PortFromByte. -/
def portFromByte (v : Byte) : Byte := v

/-- R92 PortToByte. -/
def portToByte (p : Byte) : Byte := p

end Sys2Proof.Machine
end

