-- ==== Sys2Proof/Safety.lean ====
section
/-! DEFINITION. The terms claims are stated in: runs, the end of a run (70_reset_and_hazards.md R172), and the invariant of the
engine, which rules out the states no run reaches. -/

namespace Sys2Proof.Machine

/-- `n` steps in a row. -/
def runSteps : Nat → State → Host.Outcome State Fault Refusal
  | 0, s => .next s
  | n + 1, s =>
    match step s with
    | .next t => runSteps n t
    | .fault r => .fault r
    | .refused r => .refused r

/-- A move by which the host presents a command. -/
def EnvMove.presents : EnvMove → Bool
  | .present _ _ => true
  | .withdraw => false
  | .reset => false
  | .answer _ => false
  | .letEngine => false

/-- R172: the host has no command left to present, the engine is IDLE, and a response is there or no command was ever
accepted. -/
def runEnded (s : State) : Bool :=
  !s.cmdValid && !s.env.any EnvMove.presents && s.phase == .idle && (s.resp.valid || !s.everAccepted)

/-- R107: how many completions the command in progress still needs. -/
def exchangesLeft : Phase → Nat
  | .idle => 0
  | .initW k => 10 - k.val
  | .initRb => 1
  | .wrW => 2
  | .wrRb => 1
  | .rd => 1

/-- R107: how many exchanges a host command sends; an illegal one sends none. -/
def exchangesOf (i : Instr) : Nat :=
  match i with
  | .init => 10
  | .regrd reg => if regNamed reg then 1 else 0
  | .regwr reg _ => if regNamed reg then 2 else 0
  | .portrd => 1
  | .portwr _ => 2
  | .frameWrite _ _ _ => 0
  | .frameRead _ _ => 0

/-- Whether an instruction is a host command (R66) and not a wire frame. -/
def isCommand : Instr → Bool
  | .init => true
  | .regrd _ => true
  | .regwr _ _ => true
  | .portrd => true
  | .portwr _ => true
  | .frameWrite _ _ _ => false
  | .frameRead _ _ => false

/-- R24, R26: the latched opcode and operands fit the phase. -/
def latchFits : Phase → Latches → Prop
  | .idle, _ => True
  | .initW _, l => l.op = 0x1#4 ∧ l.val = 0x00#8
  | .initRb, l => l.op = 0x1#4 ∧ l.val = 0x00#8
  | .wrW, l => l.op = 0x3#4 ∨ (l.op = 0x5#4 ∧ l.reg = 0x9#4)
  | .wrRb, l => l.op = 0x3#4 ∨ (l.op = 0x5#4 ∧ l.reg = 0x9#4)
  | .rd, l => (l.op = 0x2#4 ∨ (l.op = 0x4#4 ∧ l.reg = 0x9#4)) ∧ l.val = 0x00#8

/-- The phases of the commands other than INIT. -/
def Phase.isAccess : Phase → Bool
  | .idle => false
  | .initW _ => false
  | .initRb => false
  | .wrW => true
  | .wrRb => true
  | .rd => true

/-- The engine's invariant. It holds at reset and every step keeps it. -/
structure EngineInv (s : State) : Prop where
  /-- The expanders' registers are listed in canonical form, within DevSpace (R49). -/
  memWf : s.mem.wf
  /-- The latched register number names a register (R67, R26). -/
  regNamed : regNamed s.latch.reg = true
  /-- With a request outstanding, its frame is the phase's (R25). -/
  frame : ∀ f, frameFor s.phase s.latch = some f → s.tx = f
  /-- No answer waits while no request is outstanding (R25, R161). -/
  noStrayAnswer : s.phase = .idle → s.xrsp = none
  /-- The response is not valid while a command runs (R166). -/
  busyNotValid : s.phase ≠ .idle → s.resp.valid = false
  /-- The receive buffer is clear while an exchange is outstanding (R27). -/
  rxClear : s.phase ≠ .idle → s.rx = Frame.zero
  /-- The latches fit the phase (R26, R108). -/
  latch : latchFits s.phase s.latch
  /-- An illegal response carries nothing else (R139, R140). -/
  illegalClean : s.resp.illegal = true → s.resp.verified = false ∧ s.resp.byte = 0 ∧ s.resp.xferOk = false
  /-- A command in progress, a response and a contract mark each come from an accepted command (R172, R152). -/
  accepted : s.phase ≠ .idle ∨ s.resp.valid = true ∨ s.contractViolated = true → s.everAccepted = true
  /-- A command other than INIT in progress for an Uninitialized device has set the mark (R152). -/
  marked : s.phase.isAccess = true → devStateAt s s.latch.addr = .uninitialized → s.contractViolated = true

end Sys2Proof.Machine
end

