-- ==== Sys2Proof/Certificates/Slice0/Obligations.lean ====
section
/-! DEFINITION. The statements about the model, for the provers. -/

open Sys2Proof Sys2Proof.Machine

/-! ## Encodings -/

/-- Words and frames written out from 30_encoding.md R69, R72 and R73, one or more for each row of the opcode table. -/
def Obligations.CommandAndFrameWordsDecode : Prop :=
  decodeCmd 0x1000#16 = .ok .init ∧ decodeCmd 0x2A00#16 = .ok (.regrd 0xA#4) ∧
  decodeCmd 0x3155#16 = .ok (.regwr 0x1#4 0x55#8) ∧ decodeCmd 0x4000#16 = .ok .portrd ∧
  decodeCmd 0x50AA#16 = .ok (.portwr 0xAA#8) ∧
  decodeFrame { b0 := 0x46#8, b1 := 0x0A#8, b2 := 0xFF#8 } = .ok (.frameWrite 3#2 0xA#4 0xFF#8) ∧
  decodeFrame { b0 := 0x45#8, b1 := 0x09#8, b2 := 0x00#8 } = .ok (.frameRead 2#2 0x9#4) ∧
  decodeCmd 0x0000#16 = .error .illegalOpcode ∧ decodeCmd 0x2B00#16 = .error .illegalRegister ∧
  decodeCmd 0x4900#16 = .error .reservedField

/-- R70, R82, R84: decoding the encoding of any well-formed instruction gives it back, every operand at every value. -/
def Obligations.DecodeEncodeAgree : Prop :=
  ∀ i : Instr, i.wellFormed = true → decode (encode i) = .ok i

/-- R69, R84: whatever decodes is well formed and is the encoding of what it decodes to, so each legal word spells one
instruction and one set of operands. -/
def Obligations.DecodedInstructionReencodes : Prop :=
  ∀ (c : CodeWord) (i : Instr), decode c = .ok i → i.wellFormed = true ∧ encode i = c

/-- R66 to R68, R139: the causes of an illegal command word, and no others. -/
def Obligations.IllegalWordsAreExactlyThese : Prop :=
  ∀ w : CmdWord, (∃ e, decodeCmd w = .error e) ↔
    (w.extractLsb' 12 4 = 0x0#4 ∨ 0x6#4 ≤ w.extractLsb' 12 4 ∨
      ((w.extractLsb' 12 4 = 0x2#4 ∨ w.extractLsb' 12 4 = 0x3#4) ∧ 0xB#4 ≤ w.extractLsb' 8 4) ∨
      ((w.extractLsb' 12 4 = 0x1#4 ∨ w.extractLsb' 12 4 = 0x4#4 ∨ w.extractLsb' 12 4 = 0x5#4) ∧
        w.extractLsb' 8 4 ≠ 0x0#4) ∨
      ((w.extractLsb' 12 4 = 0x1#4 ∨ w.extractLsb' 12 4 = 0x2#4 ∨ w.extractLsb' 12 4 = 0x4#4) ∧
        w.extractLsb' 0 8 ≠ 0x00#8))

/-- R88: the encoder's seven laws. -/
def Obligations.EncoderLaws : Prop :=
  ∀ (address : DeviceAddress) (reg : RegNum) (v : Byte), reg ≤ 0xA#4 →
    (encodeWrite address reg v).b0.extractLsb' 1 2 = address ∧
    (encodeWrite address reg v).b0.getLsbD 0 = false ∧
    (encodeWrite address reg v).b1 = reg.setWidth 8 ∧
    (encodeWrite address reg v).b2 = v ∧
    (encodeRead address reg).b0.getLsbD 0 = true ∧
    (encodeRead address reg).b2 = 0x00#8 ∧
    (encodeWrite address reg v).b0.extractLsb' 3 5 = 0b01000#5 ∧
    (encodeRead address reg).b0.extractLsb' 3 5 = 0b01000#5

/-- R89: the encoder is injective, and no write frame is a read frame. -/
def Obligations.EncoderInjective : Prop :=
  (∀ (a a' : DeviceAddress) (r r' : RegNum) (v v' : Byte),
    encodeWrite a r v = encodeWrite a' r' v' → a = a' ∧ r = r' ∧ v = v') ∧
  (∀ (a a' : DeviceAddress) (r r' : RegNum), encodeRead a r = encodeRead a' r' → a = a' ∧ r = r') ∧
  (∀ (a a' : DeviceAddress) (r r' : RegNum) (v : Byte), encodeWrite a r v ≠ encodeRead a' r')

/-- R83: the two constants contain their read/write bit, OR-ing it in changes nothing, and both ways to compute byte 0 give
the encoder's. -/
def Obligations.ControlByteForms : Prop :=
  Config.writeControlBase = 0x40#8 ∧ Config.writeControlBase.getLsbD 0 = false ∧
  Config.readControlBase = 0x41#8 ∧ Config.readControlBase.getLsbD 0 = true ∧
  ∀ (a : DeviceAddress) (r : RegNum) (v : Byte),
    (encodeWrite a r v).b0 = 0x40#8 ||| (a.setWidth 8 <<< 1) ∧
    (encodeWrite a r v).b0 = 0x40#8 ||| (a.setWidth 8 <<< 1) ||| Config.writeBit ∧
    (encodeRead a r).b0 = 0x41#8 ||| (a.setWidth 8 <<< 1) ∧
    (encodeRead a r).b0 = 0x41#8 ||| (a.setWidth 8 <<< 1) ||| Config.readBit ∧
    (encodeRead a r).b0 = 0x40#8 ||| (a.setWidth 8 <<< 1) ||| Config.readBit

/-- R71: the bits of `cmd_cfg`, and that packing and unpacking are inverse. -/
def Obligations.SideBandLayout : Prop :=
  (∀ c : DeviceConfig,
    (packCfg c).extractLsb' 0 2 = c.address ∧ (packCfg c).extractLsb' 2 8 = c.rc.direction ∧
    (packCfg c).extractLsb' 10 8 = c.rc.polarity ∧ (packCfg c).extractLsb' 18 8 = c.rc.interruptEnable ∧
    (packCfg c).extractLsb' 26 8 = c.rc.defaultCompare ∧ (packCfg c).extractLsb' 34 8 = c.rc.interruptControl ∧
    (packCfg c).extractLsb' 42 8 = c.rc.configuration ∧ (packCfg c).extractLsb' 50 8 = c.rc.pullUp ∧
    (packCfg c).extractLsb' 58 8 = c.rc.port ∧ (packCfg c).extractLsb' 66 8 = c.rc.outputLatch ∧
    unpackCfg (packCfg c) = c) ∧
  (∀ w : BitVec 74, packCfg (unpackCfg w) = w)

/-- R84: a bus monitor reads from the encoder's frames what went into them; a frame without the pattern is not valid. -/
def Obligations.MonitorReadsEncodedFrames : Prop :=
  (∀ (a : DeviceAddress) (r : RegNum) (v : Byte),
    monitorFrame (encodeWrite a r v) = some { read := false, address := a, reg := r.setWidth 8, data := v }) ∧
  (∀ (a : DeviceAddress) (r : RegNum),
    monitorFrame (encodeRead a r) = some { read := true, address := a, reg := r.setWidth 8, data := 0x00#8 }) ∧
  (∀ f : Frame, f.b0.extractLsb' 3 5 ≠ 0b01000#5 → monitorFrame f = none)

/-- R90, R91, R92: reading a line, setting a line, and the raw conversions of a PortValue. -/
def Obligations.PortValueView : Prop :=
  (∀ (p : Byte) (i : Nat), i < 8 → portBit p i = some (p.getLsbD i)) ∧
  (∀ (p : Byte) (i : Nat), 8 ≤ i → portBit p i = none) ∧
  portBit 0xAA#8 0 = some false ∧ portBit 0xAA#8 1 = some true ∧
  (∀ (p : Byte) (i : Nat) (b : Bool), i < 8 →
    portSetBit p i b = some ((p &&& ~~~(1#8 <<< i)) ||| ((BitVec.ofBool b).setWidth 8 <<< i)) ∧
    ∀ q, portSetBit p i b = some q → q.getLsbD i = b ∧ ∀ j, j < 8 → j ≠ i → q.getLsbD j = p.getLsbD j) ∧
  (∀ (p : Byte) (i : Nat), i < 8 → portSetBit p i (p.getLsbD i) = some p) ∧
  portSetBit 0x00#8 7 true = some 0x80#8 ∧
  (∀ v : Byte, portFromByte v = v ∧ portToByte v = v)

/-! ## Accepting a command -/

/-- R100, R120, R26, R27: INIT is accepted in IDLE. The whole next state is given, so nothing else changes. That the command
is taken off the port is log 4, `everAccepted` is the model's own ghost (log 17); that `L.val` becomes 0x00, as R26 says, though
the pseudocode of R100 does not write it, and that `L.reg` keeps its value, is log 26. -/
def Obligations.InitAccepted : Prop :=
  ∀ s : State, s.phase = .idle →
    exec .init s = .next { s with
      cmdValid := false
      everAccepted := true
      resp := { s.resp with valid := false }
      latch := { s.latch with op := 0x1#4, val := 0x00#8, addr := s.cmdCfg.address, rc := s.cmdCfg.rc }
      accOk := true
      phase := .initW 0
      tx := encodeWrite s.cmdCfg.address 0x5#4 s.cmdCfg.rc.configuration
      rx := { b0 := 0x00#8, b1 := 0x00#8, b2 := 0x00#8 } }

/-- R100, R103: REGRD of any of the 11 registers is accepted in IDLE (the whole next state; logs 4 and 17). -/
def Obligations.RegrdAccepted : Prop :=
  ∀ (s : State) (reg : RegNum), s.phase = .idle → reg ≤ 0xA#4 →
    exec (.regrd reg) s = .next { s with
      cmdValid := false
      everAccepted := true
      resp := { s.resp with valid := false }
      latch := { s.latch with op := 0x2#4, reg := reg, val := 0x00#8, addr := s.cmdCfg.address }
      accOk := true
      contractViolated := s.contractViolated || devStateAt s s.cmdCfg.address == .uninitialized
      phase := .rd
      tx := encodeRead s.cmdCfg.address reg
      rx := { b0 := 0x00#8, b1 := 0x00#8, b2 := 0x00#8 } }

/-- R100, R104, R36: REGWR of any of the 11 registers, the read-only two among them, is accepted in IDLE (the whole next
state; logs 4 and 17). -/
def Obligations.RegwrAccepted : Prop :=
  ∀ (s : State) (reg : RegNum) (v : Byte), s.phase = .idle → reg ≤ 0xA#4 →
    exec (.regwr reg v) s = .next { s with
      cmdValid := false
      everAccepted := true
      resp := { s.resp with valid := false }
      latch := { s.latch with op := 0x3#4, reg := reg, val := v, addr := s.cmdCfg.address }
      accOk := true
      contractViolated := s.contractViolated || devStateAt s s.cmdCfg.address == .uninitialized
      phase := .wrW
      tx := encodeWrite s.cmdCfg.address reg v
      rx := { b0 := 0x00#8, b1 := 0x00#8, b2 := 0x00#8 } }

/-- R100, R105: PORTRD is accepted in IDLE (the whole next state; logs 4 and 17). -/
def Obligations.PortrdAccepted : Prop :=
  ∀ s : State, s.phase = .idle →
    exec .portrd s = .next { s with
      cmdValid := false
      everAccepted := true
      resp := { s.resp with valid := false }
      latch := { s.latch with op := 0x4#4, reg := 0x9#4, val := 0x00#8, addr := s.cmdCfg.address }
      accOk := true
      contractViolated := s.contractViolated || devStateAt s s.cmdCfg.address == .uninitialized
      phase := .rd
      tx := encodeRead s.cmdCfg.address 0x9#4
      rx := { b0 := 0x00#8, b1 := 0x00#8, b2 := 0x00#8 } }

/-- R100, R106: PORTWR is accepted in IDLE (the whole next state; logs 4 and 17). -/
def Obligations.PortwrAccepted : Prop :=
  ∀ (s : State) (v : Byte), s.phase = .idle →
    exec (.portwr v) s = .next { s with
      cmdValid := false
      everAccepted := true
      resp := { s.resp with valid := false }
      latch := { s.latch with op := 0x5#4, reg := 0x9#4, val := v, addr := s.cmdCfg.address }
      accOk := true
      contractViolated := s.contractViolated || devStateAt s s.cmdCfg.address == .uninitialized
      phase := .wrW
      tx := encodeWrite s.cmdCfg.address 0x9#4 v
      rx := { b0 := 0x00#8, b1 := 0x00#8, b2 := 0x00#8 } }

/-- R139, R67: REGRD and REGWR of a register number 0xB..0xF are rejected in IDLE: the response is written, the command is
taken (log 4) and the model's own ghost `everAccepted` is set (log 17); nothing else changes. That exec rejects as the decoder
does is log 23. -/
def Obligations.UnnamedRegisterRejected : Prop :=
  ∀ (s : State) (reg : RegNum) (v : Byte), s.phase = .idle → 0xB#4 ≤ reg →
    exec (.regrd reg) s = .next { s with
      cmdValid := false
      everAccepted := true
      resp := { valid := true, verified := false, byte := 0x00#8, xferOk := false, illegal := true } } ∧
    exec (.regwr reg v) s = .next { s with
      cmdValid := false
      everAccepted := true
      resp := { valid := true, verified := false, byte := 0x00#8, xferOk := false, illegal := true } }

/-- R139: a presented word that is no command is rejected in the accept step; no frame is sent, the phase stays IDLE, and
latches, acc_ok, tx, rx, the expanders and the spec's ghost state are unchanged. That the command is taken is log 4, that
`everAccepted` is set is log 17, and that the engine's turn in `env` is used up is log 1. -/
def Obligations.IllegalCommandStep : Prop :=
  ∀ (s : State) (e : DecodeError),
    engineNext s = true → s.phase = .idle → s.cmdValid = true → decodeCmd s.cmdWord = .error e →
    step s = .next { s with
      env := s.env.tail
      cmdValid := false
      everAccepted := true
      resp := { valid := true, verified := false, byte := 0x00#8, xferOk := false, illegal := true } }

/-- R22, R167: presented to a busy engine, a command is not accepted; it stays on the port and nothing changes (log 5). -/
def Obligations.BusyEngineHoldsCommand : Prop :=
  ∀ (s : State) (i : Instr), isCommand i = true → s.phase ≠ .idle → exec i s = .next s

/-- R81: PORTRD and REGRD PORT, and PORTWR and REGWR PORT, are distinct encodings that leave the same state but for the
latched opcode, and no later step of the command depends on that opcode, so they send the same frames and write the same
response. -/
def Obligations.PortCommandsMatchRegisterCommands : Prop :=
  encode .portrd = .cmd 0x4000#16 ∧ encode (.regrd 0x9#4) = .cmd 0x2900#16 ∧
  (∀ v : Byte, encode (.portwr v) = .cmd (0x5000#16 ||| v.setWidth 16) ∧
    encode (.regwr 0x9#4 v) = .cmd (0x3900#16 ||| v.setWidth 16)) ∧
  (∀ s t : State, exec (.regrd 0x9#4) s = .next t → s.phase = .idle →
    exec .portrd s = .next { t with latch := { t.latch with op := 0x4#4 } }) ∧
  (∀ (s t : State) (v : Byte), exec (.regwr 0x9#4 v) s = .next t → s.phase = .idle →
    exec (.portwr v) s = .next { t with latch := { t.latch with op := 0x5#4 } }) ∧
  (∀ (s t : State) (op : BitVec 4), s.phase ≠ .idle → s.resetIn = false → step s = .next t →
    step { s with latch := { s.latch with op := op } } = .next { t with latch := { t.latch with op := op } })

/-! ## The exchanges -/

/-- R52, R101: FRAME_WRITE in a write phase, answered by IdealDevice. The whole next state is given: the byte is stored, the
next exchange is issued, three bytes under no law have been drawn (log 11), and the answer is used up (log 9). Reading back
gives the byte; every other location reads as before. -/
def Obligations.FrameWriteOnIdealDevice : Prop :=
  ∀ (s : State) (a : DeviceAddress) (reg : RegNum) (v : Byte), reg ≤ 0xA#4 → s.xrsp = some .idealDevice →
    (s.phase = .wrW →
      exec (.frameWrite a reg v) s = .next { s with
        phase := .wrRb
        tx := encodeRead s.latch.addr s.latch.reg
        rx := { b0 := 0x00#8, b1 := 0x00#8, b2 := 0x00#8 }
        xrsp := none
        mem := devWrite s.mem a reg v
        freeCount := s.freeCount + 3 }) ∧
    (∀ k : Fin 9, ∀ h : k.val < 8, s.phase = .initW k →
      exec (.frameWrite a reg v) s = .next { s with
        phase := .initW ⟨k.val + 1, by omega⟩
        tx := encodeWrite s.latch.addr (initReg ⟨k.val + 1, by omega⟩).number (initVal s.latch.rc ⟨k.val + 1, by omega⟩)
        rx := { b0 := 0x00#8, b1 := 0x00#8, b2 := 0x00#8 }
        xrsp := none
        mem := devWrite s.mem a reg v
        freeCount := s.freeCount + 3 }) ∧
    (s.phase = .initW 8 →
      exec (.frameWrite a reg v) s = .next { s with
        phase := .initRb
        tx := encodeRead s.latch.addr 0x5#4
        rx := { b0 := 0x00#8, b1 := 0x00#8, b2 := 0x00#8 }
        xrsp := none
        mem := devWrite s.mem a reg v
        freeCount := s.freeCount + 3 }) ∧
    devRead (devWrite s.mem a reg v) a reg = v ∧
    (∀ (a' : DeviceAddress) (r' : RegNum), (a', r') ≠ (a, reg) →
      devRead (devWrite s.mem a reg v) a' r' = devRead s.mem a' r')

/-- R52, R101, R102: FRAME_READ in a read phase, answered by IdealDevice. The whole next state is given: byte 2 is the
register's value, and the response is written. The expanders are unchanged. -/
def Obligations.FrameReadOnIdealDevice : Prop :=
  ∀ (s : State) (a : DeviceAddress) (reg : RegNum), reg ≤ 0xA#4 → s.xrsp = some .idealDevice →
    (s.phase = .rd →
      exec (.frameRead a reg) s = .next { s with
        phase := .idle
        rx := { b0 := Config.anyByte s.freeCount, b1 := Config.anyByte (s.freeCount + 1), b2 := devRead s.mem a reg }
        xrsp := none
        resp := { valid := true, verified := false, byte := devRead s.mem a reg, xferOk := s.accOk, illegal := false }
        freeCount := s.freeCount + 2 }) ∧
    (s.phase = .wrRb →
      exec (.frameRead a reg) s = .next { s with
        phase := .idle
        rx := { b0 := Config.anyByte s.freeCount, b1 := Config.anyByte (s.freeCount + 1), b2 := devRead s.mem a reg }
        xrsp := none
        resp :=
          { valid := true, verified := devRead s.mem a reg == s.latch.val, byte := devRead s.mem a reg,
            xferOk := s.accOk, illegal := false }
        freeCount := s.freeCount + 2 }) ∧
    (s.phase = .initRb →
      exec (.frameRead a reg) s = .next { s with
        phase := .idle
        rx := { b0 := Config.anyByte s.freeCount, b1 := Config.anyByte (s.freeCount + 1), b2 := devRead s.mem a reg }
        xrsp := none
        resp :=
          { valid := true, verified := devRead s.mem a reg == s.latch.rc.configuration,
            byte := devRead s.mem a reg, xferOk := s.accOk, illegal := false }
        devState := s.devState.set s.latch.addr.toNat
          (if devRead s.mem a reg == s.latch.rc.configuration then .initialized else .uninitialized) s.latch.addr.isLt
        freeCount := s.freeCount + 2 })

/-- R101, R102, R28, R125: in every phase with an exchange outstanding, either frame completes whatever the transport answers:
the phase goes where R101 says, `acc_ok` takes up the status, and at a finish the response is written from the byte received. -/
def Obligations.CompletionFollowsPhase : Prop :=
  ∀ (s : State) (i : Instr) (c : Completion) (changes : List DeviceChange),
    ((∃ a reg v, i = .frameWrite a reg v ∧ reg ≤ 0xA#4) ∨ (∃ a reg, i = .frameRead a reg ∧ reg ≤ 0xA#4)) →
    s.phase ≠ .idle → s.xrsp = some (.general c changes) →
    ∃ t, exec i s = .next t ∧ t.accOk = (s.accOk && !c.fail) ∧ t.latch = s.latch ∧
      t.mem = applyChanges changes s.mem ∧
      (∀ k : Fin 9, s.phase = .initW k → t.resp = s.resp ∧ t.devState = s.devState ∧
        ((∀ h : k.val < 8, t.phase = .initW ⟨k.val + 1, by omega⟩) ∧ (k.val = 8 → t.phase = .initRb))) ∧
      (s.phase = .wrW → t.phase = .wrRb ∧ t.resp = s.resp ∧ t.devState = s.devState) ∧
      (s.phase = .rd → t.phase = .idle ∧ t.rx = c.rx ∧ t.devState = s.devState ∧
        t.resp = { valid := true, verified := false, byte := c.rx.b2, xferOk := s.accOk && !c.fail, illegal := false }) ∧
      (s.phase = .wrRb → t.phase = .idle ∧ t.rx = c.rx ∧ t.devState = s.devState ∧
        t.resp =
          { valid := true, verified := c.rx.b2 == s.latch.val, byte := c.rx.b2,
            xferOk := s.accOk && !c.fail, illegal := false }) ∧
      (s.phase = .initRb → t.phase = .idle ∧ t.rx = c.rx ∧
        t.devState = s.devState.set s.latch.addr.toNat
          (if c.rx.b2 == s.latch.rc.configuration then .initialized else .uninitialized) s.latch.addr.isLt ∧
        t.resp =
          { valid := true, verified := c.rx.b2 == s.latch.rc.configuration, byte := c.rx.b2,
            xferOk := s.accOk && !c.fail, illegal := false })

/-- R147: while the transport has not answered, the exchange of a frame waits and nothing changes. -/
def Obligations.FrameWithoutAnswerWaits : Prop :=
  ∀ (s : State) (a : DeviceAddress) (reg : RegNum) (v : Byte), reg ≤ 0xA#4 → s.phase ≠ .idle → s.xrsp = none →
    exec (.frameWrite a reg v) s = .next s ∧ exec (.frameRead a reg) s = .next s

/-- 93 U11, log 8: a frame for a register above 0xA is refused by name, in every state. -/
def Obligations.FrameBeyondRegistersRefused : Prop :=
  ∀ (s : State) (a : DeviceAddress) (reg : RegNum) (v : Byte), 0xB#4 ≤ reg →
    exec (.frameWrite a reg v) s = .refused .frameNeverSent ∧ exec (.frameRead a reg) s = .refused .frameNeverSent

/-- R161: an answer that comes while no request is outstanding has no effect on the engine or the expanders, whether it is the
environment's next move or the exchange of a frame is asked for in IDLE; nor has a second answer to a request already answered
(logs 2, 7). -/
def Obligations.LateAnswerIgnored : Prop :=
  (∀ (s : State) (ans : Answer) (rest : List EnvMove), s.resetIn = false → s.phase = .idle ∨ s.xrsp ≠ none →
    s.env = .answer ans :: rest → step s = .next { s with env := rest }) ∧
  (∀ (s : State) (a : DeviceAddress) (reg : RegNum) (v : Byte), reg ≤ 0xA#4 → s.phase = .idle →
    exec (.frameWrite a reg v) s = .next { s with xrsp := none } ∧
    exec (.frameRead a reg) s = .next { s with xrsp := none })

/-! ## Frames: what is left unchanged -/

/-- What a host command (INIT, REGRD, REGWR, PORTRD, PORTWR), accepted, rejected or held, leaves unchanged: every location of
the expanders, `dev_state`, the port's word and side-band, the reset input, the transport's answer, the coming moves and the
count of free values; `L.rc` too, but for INIT; and all of `resp` but `valid`, but for a rejection. -/
def Obligations.CommandFrame : Prop :=
  ∀ (i : Instr) (s t : State), isCommand i = true → exec i s = .next t →
    (∀ (a : DeviceAddress) (r : RegNum), devRead t.mem a r = devRead s.mem a r) ∧
    t.devState = s.devState ∧ t.cmdWord = s.cmdWord ∧ t.cmdCfg = s.cmdCfg ∧ t.resetIn = s.resetIn ∧
    t.xrsp = s.xrsp ∧ t.env = s.env ∧ t.freeCount = s.freeCount ∧
    (i ≠ .init → t.latch.rc = s.latch.rc) ∧
    (i = .init → t.latch.reg = s.latch.reg ∧ t.contractViolated = s.contractViolated) ∧
    (i.wellFormed = true → t.resp = s.resp ∨ t.resp = { s.resp with valid := false })

/-- What the exchange of a wire frame leaves unchanged: the latches, the host's ports, the reset input, the coming moves, the
contract mark and the accepted mark; `dev_state` but for INIT's read-back, and then all but the latched device's. Of the
expanders, under either reference device: after FRAME_READ every location, and after FRAME_WRITE every location but the one
written, reads as before. -/
def Obligations.ExchangeFrame : Prop :=
  ∀ (s t : State) (a : DeviceAddress) (reg : RegNum) (v : Byte),
    ((exec (.frameWrite a reg v) s = .next t ∨ exec (.frameRead a reg) s = .next t) →
      t.latch = s.latch ∧ t.cmdValid = s.cmdValid ∧ t.cmdWord = s.cmdWord ∧ t.cmdCfg = s.cmdCfg ∧
      t.resetIn = s.resetIn ∧ t.env = s.env ∧ t.contractViolated = s.contractViolated ∧
      t.everAccepted = s.everAccepted ∧ (s.phase ≠ .initRb → t.devState = s.devState) ∧
      (∀ d : DeviceAddress, d ≠ s.latch.addr → devStateAt t d = devStateAt s d)) ∧
    (exec (.frameRead a reg) s = .next t → (s.xrsp = some .idealDevice ∨ s.xrsp = some .corruptingDevice) →
      ∀ (a' : DeviceAddress) (r' : RegNum), devRead t.mem a' r' = devRead s.mem a' r') ∧
    (exec (.frameWrite a reg v) s = .next t → (s.xrsp = some .idealDevice ∨ s.xrsp = some .corruptingDevice) →
      ∀ (a' : DeviceAddress) (r' : RegNum), (a', r') ≠ (a, reg) → devRead t.mem a' r' = devRead s.mem a' r')

/-! ## The step -/

/-- R100: on the engine's turn, in IDLE with a command presented that decodes, the step is the instruction's; around it the step
only uses up the turn (log 1). -/
def Obligations.StepRunsDecodedCommand : Prop :=
  ∀ (s : State) (i : Instr), engineNext s = true → s.phase = .idle → s.cmdValid = true → decodeCmd s.cmdWord = .ok i →
    step s = exec i { s with env := s.env.tail }

/-- R101, R84: on the engine's turn, with an answered request outstanding whose frame decodes, the step is the frame's (log 6);
around it the step only uses up the turn (log 1). -/
def Obligations.StepRunsDecodedFrame : Prop :=
  ∀ (s : State) (i : Instr) (ans : Answer), engineNext s = true → s.phase ≠ .idle → s.xrsp = some ans →
    decodeFrame s.tx = .ok i → step s = exec i { s with env := s.env.tail }

/-- R40: the values after reset, and that the expanders then hold `DevInit`, whatever that is. The signals the host drives and
the fields that are the model's own are not the spec's (logs 2, 11, 16, 17) and are not stated. -/
def Obligations.ResetValues : Prop :=
  State.reset.phase = .idle ∧ cmdReady State.reset = true ∧ xreqValid State.reset = false ∧
  State.reset.resp = { valid := false, verified := false, byte := 0x00#8, xferOk := false, illegal := false } ∧
  State.reset.latch.op = 0 ∧ State.reset.latch.reg = 0 ∧ State.reset.latch.addr = 0 ∧ State.reset.latch.val = 0x00#8 ∧
  State.reset.latch.rc =
    { direction := 0x00#8, polarity := 0x00#8, interruptEnable := 0x00#8, defaultCompare := 0x00#8,
      interruptControl := 0x00#8, configuration := 0x00#8, pullUp := 0x00#8, port := 0x00#8, outputLatch := 0x00#8 } ∧
  State.reset.tx = { b0 := 0x00#8, b1 := 0x00#8, b2 := 0x00#8 } ∧
  State.reset.rx = { b0 := 0x00#8, b1 := 0x00#8, b2 := 0x00#8 } ∧ State.reset.accOk = true ∧
  (∀ a : DeviceAddress, devStateAt State.reset a = .uninitialized) ∧ State.reset.contractViolated = false ∧
  (∀ (a : DeviceAddress) (r : RegNum), devRead State.reset.mem a r = Config.devInit (16 * a.toNat + r.toNat))

/-- R160: the reset step. Every engine register takes its reset value, `dev_state` is Uninitialized everywhere,
`contract_violated` is kept; and reset is the only step that leaves a non-IDLE phase without a completion. -/
def Obligations.ResetStep : Prop :=
  (∀ s : State, s.resetIn = true → ∃ t, step s = .next t ∧
    t.phase = .idle ∧ cmdReady t = true ∧ xreqValid t = false ∧
    t.resp = { valid := false, verified := false, byte := 0x00#8, xferOk := false, illegal := false } ∧
    t.latch.op = 0 ∧ t.latch.reg = 0 ∧ t.latch.addr = 0 ∧ t.latch.val = 0x00#8 ∧
    t.latch.rc =
      { direction := 0x00#8, polarity := 0x00#8, interruptEnable := 0x00#8, defaultCompare := 0x00#8,
        interruptControl := 0x00#8, configuration := 0x00#8, pullUp := 0x00#8, port := 0x00#8, outputLatch := 0x00#8 } ∧
    t.tx = { b0 := 0x00#8, b1 := 0x00#8, b2 := 0x00#8 } ∧ t.rx = { b0 := 0x00#8, b1 := 0x00#8, b2 := 0x00#8 } ∧
    t.accOk = true ∧
    (∀ a : DeviceAddress, devStateAt t a = .uninitialized) ∧ t.contractViolated = s.contractViolated) ∧
  (∀ s t : State, step s = .next t → s.phase ≠ .idle → t.phase ≠ s.phase → s.resetIn = false → s.xrsp ≠ none)

/-- R161, R162, 93 U12: reset while an exchange is outstanding withdraws the request, and no response is written. Whether the
exchange took effect is a free choice (log 13): with no answer there, or IdealDevice's, the register of a write frame holds its
old value or the new one; with CorruptingDevice's, its old value or `g` of the new one; with any other answer, the answer's
changes are made or not. Every other location reads as before. A read frame under no answer or a reference device's, and reset in
IDLE, leave every location as it was. -/
def Obligations.ResetDuringExchange : Prop :=
  (∀ (s : State) (a : DeviceAddress) (reg : RegNum) (v : Byte), s.resetIn = true → s.phase ≠ .idle → reg ≤ 0xA#4 →
    s.tx = encodeWrite a reg v → ∃ t, step s = .next t ∧ xreqValid t = false ∧ t.xrsp = none ∧ t.resp.valid = false ∧
      (s.xrsp = none ∨ s.xrsp = some .idealDevice →
        devRead t.mem a reg = devRead s.mem a reg ∨ devRead t.mem a reg = v) ∧
      (s.xrsp = some .corruptingDevice →
        devRead t.mem a reg = devRead s.mem a reg ∨ devRead t.mem a reg = corrupted v) ∧
      (∀ c changes, s.xrsp = some (.general c changes) → t.mem = s.mem ∨ t.mem = applyChanges changes s.mem) ∧
      ((∀ c changes, s.xrsp ≠ some (.general c changes)) →
        ∀ (a' : DeviceAddress) (r' : RegNum), (a', r') ≠ (a, reg) → devRead t.mem a' r' = devRead s.mem a' r')) ∧
  (∀ (s : State) (a : DeviceAddress) (reg : RegNum), s.resetIn = true →
    (s.phase = .idle ∨ (reg ≤ 0xA#4 ∧ s.tx = encodeRead a reg)) →
    ∃ t, step s = .next t ∧ t.xrsp = none ∧ t.resp.valid = false ∧
      ((∀ c changes, s.xrsp ≠ some (.general c changes)) ∨ s.phase = .idle → t.mem = s.mem) ∧
      (∀ c changes, s.xrsp = some (.general c changes) → t.mem = s.mem ∨ t.mem = applyChanges changes s.mem))

/-- R147, R164, R151: with no answer there and no move to come, a busy engine with no reset coming stays where it is for ever;
and so does an IDLE engine with no command presented. -/
def Obligations.NothingMovesWithoutInput : Prop :=
  ∀ (s : State) (n : Nat), s.resetIn = false → s.env = [] →
    ((s.phase ≠ .idle ∧ s.xrsp = none) ∨ (s.phase = .idle ∧ s.cmdValid = false)) → runSteps n s = .next s

/-! ## The host's moves and the transport's -/

/-- R22, R167, R160, R173: the next move of the host or the transport drives its own port and nothing else, whatever the engine is
doing: the host presents and withdraws a command at any time, and asserts reset at any time, before a step of the engine that is
enabled, and the step after that is the engine reset; the transport answers a request that is outstanding and not answered.
On its turn with no step enabled the engine does nothing (logs 1, 2). -/
def Obligations.EnvironmentDrivesItsPorts : Prop :=
  ∀ (s : State) (rest : List EnvMove), s.resetIn = false →
    (∀ w c, s.env = .present w c :: rest →
      step s = .next { s with env := rest, cmdValid := true, cmdWord := w, cmdCfg := c }) ∧
    (s.env = .withdraw :: rest → step s = .next { s with env := rest, cmdValid := false }) ∧
    (s.env = .reset :: rest →
      step s = .next { s with env := rest, resetIn := true } ∧
      runSteps 2 s = .next (resetEngine { s with env := rest, resetIn := true })) ∧
    (∀ ans, s.phase ≠ .idle → s.xrsp = none → s.env = .answer ans :: rest →
      step s = .next { s with env := rest, xrsp := some ans }) ∧
    ((s.phase = .idle ∧ s.cmdValid = false) ∨ (s.phase ≠ .idle ∧ s.xrsp = none) → s.env = .letEngine :: rest →
      step s = .next { s with env := rest })

/-! ## Invariants and whole-machine rules -/

/-- The engine's invariant holds at reset. -/
def Obligations.InvariantAtReset : Prop := EngineInv State.reset

/-- Every step keeps the engine's invariant (`EngineInv`: R25, R26, R27, R49, R67, R108, R139, R152, R161, R166). -/
def Obligations.StepKeepsInvariant : Prop :=
  ∀ s t : State, EngineInv s → step s = .next t → EngineInv t

/-- R135, R93: in a state of the invariant every step has a next state: no step faults or is refused. -/
def Obligations.StepNeverStops : Prop :=
  ∀ s : State, EngineInv s → ∃ t, step s = .next t

/-- R77, R50: every frame the engine has on the wire has byte 0 in 0x40..0x47, byte 1 in 0x00..0x0A, and byte 2 0x00 if it is
a read. -/
def Obligations.OnlyLegalFramesSent : Prop :=
  ∀ s : State, EngineInv s → s.phase ≠ .idle →
    0x40#8 ≤ s.tx.b0 ∧ s.tx.b0 ≤ 0x47#8 ∧ s.tx.b1 ≤ 0x0A#8 ∧ (s.tx.b0.getLsbD 0 = true → s.tx.b2 = 0x00#8)

/-- R108: all the phase transitions, and that the phase register never holds 14 or 15. `engineNext` says it is the engine's turn
(log 1). -/
def Obligations.PhaseTransitions : Prop :=
  (∀ s t : State, step s = .next t →
    (s.resetIn = true → t.phase = .idle) ∧
    (s.resetIn = false → engineNext s = false → t.phase = s.phase) ∧
    (engineNext s = true → s.phase = .idle → s.cmdValid = false → t.phase = .idle) ∧
    (engineNext s = true → s.phase = .idle → s.cmdValid = true →
      (decodeCmd s.cmdWord = .ok .init → t.phase = .initW 0) ∧
      ((∃ r, decodeCmd s.cmdWord = .ok (.regrd r)) ∨ decodeCmd s.cmdWord = .ok .portrd → t.phase = .rd) ∧
      ((∃ r v, decodeCmd s.cmdWord = .ok (.regwr r v)) ∨ (∃ v, decodeCmd s.cmdWord = .ok (.portwr v)) →
        t.phase = .wrW) ∧
      ((∃ e, decodeCmd s.cmdWord = .error e) → t.phase = .idle)) ∧
    (engineNext s = true → s.phase ≠ .idle → s.xrsp = none → t.phase = s.phase) ∧
    (engineNext s = true → s.xrsp ≠ none →
      (∀ k : Fin 9, ∀ h : k.val < 8, s.phase = .initW k → t.phase = .initW ⟨k.val + 1, by omega⟩) ∧
      (s.phase = .initW 8 → t.phase = .initRb) ∧
      (s.phase = .initRb → t.phase = .idle) ∧ (s.phase = .wrW → t.phase = .wrRb) ∧
      (s.phase = .wrRb → t.phase = .idle) ∧ (s.phase = .rd → t.phase = .idle))) ∧
  (∀ p : Phase, p.code ≠ 14 ∧ p.code ≠ 15)

/-- R24: the 4-bit values of the phases. -/
def Obligations.PhaseValues : Prop :=
  Phase.code .idle = 0 ∧ (∀ k : Fin 9, (Phase.code (.initW k)).toNat = k.val + 1) ∧ Phase.code .initRb = 10 ∧
  Phase.code .wrW = 11 ∧ Phase.code .wrRb = 12 ∧ Phase.code .rd = 13 ∧
  (∀ p q : Phase, p.code = q.code → p = q)

/-- R44: the response keeps its values until an accepted command clears `resp.valid`, and the end of a command (the rejection
of an illegal one, or a finish) writes all its fields; no other step but a reset writes any. `engineNext` says it is
the engine's turn (log 1). -/
def Obligations.ResponseHeld : Prop :=
  ∀ s t : State, s.resetIn = false → step s = .next t →
    (engineNext s = false → t.resp = s.resp) ∧
    (s.phase = .idle → s.cmdValid = false → t.resp = s.resp) ∧
    (∀ i, engineNext s = true → s.phase = .idle → s.cmdValid = true → decodeCmd s.cmdWord = .ok i →
      t.resp = { s.resp with valid := false }) ∧
    (∀ e, engineNext s = true → s.phase = .idle → s.cmdValid = true → decodeCmd s.cmdWord = .error e →
      t.resp = { valid := true, verified := false, byte := 0x00#8, xferOk := false, illegal := true }) ∧
    (s.phase ≠ .idle → t.phase ≠ .idle → t.resp = s.resp) ∧
    (s.phase ≠ .idle → t.phase = .idle → ∃ verified,
      t.resp = { valid := true, verified := verified, byte := t.rx.b2, xferOk := t.accOk, illegal := false } ∧
      (s.phase = .rd → verified = false) ∧ (s.phase = .wrRb → verified = (t.rx.b2 == s.latch.val)) ∧
      (s.phase = .initRb → verified = (t.rx.b2 == s.latch.rc.configuration)))

/-- R39: `contract_violated` is set by a step that accepts REGRD, REGWR, PORTRD or PORTWR for an Uninitialized device, by no
other step, and never cleared. `engineNext` says it is the engine's turn (log 1). -/
def Obligations.ContractMark : Prop :=
  ∀ s t : State, step s = .next t →
    (t.contractViolated = true ↔
      s.contractViolated = true ∨
        (engineNext s = true ∧ s.phase = .idle ∧ s.cmdValid = true ∧
          devStateAt s s.cmdCfg.address = .uninitialized ∧ ∃ i, decodeCmd s.cmdWord = .ok i ∧ i ≠ .init))

/-- R125: at INIT's finish `dev_state[L.addr]` becomes Initialized or Uninitialized as `resp.verified` says, the other devices
keep theirs, and no other step but reset changes any. -/
def Obligations.DeviceStateFollowsInit : Prop :=
  ∀ s t : State, s.resetIn = false → step s = .next t →
    ((s.phase = .initRb ∧ t.phase = .idle) →
      (devStateAt t s.latch.addr = if t.resp.verified then .initialized else .uninitialized) ∧
      ∀ d : DeviceAddress, d ≠ s.latch.addr → devStateAt t d = devStateAt s d) ∧
    (¬(s.phase = .initRb ∧ t.phase = .idle) → t.devState = s.devState)

/-- R38, R152: the ghost state never changes a hardware value: two states that differ only in `dev_state` and
`contract_violated` make steps to states that differ only there. -/
def Obligations.GhostNeverChangesHardware : Prop :=
  ∀ (s t : State) (d : Vector DevState 4) (m : Bool), step s = .next t →
    ∃ (d' : Vector DevState 4) (m' : Bool),
      step { s with devState := d, contractViolated := m } = .next { t with devState := d', contractViolated := m' }

/-- R122, R136: the transport's status and `rx_len` never change the control flow, the verify or what is stored: completions
with the same bytes lead to states that differ only in `acc_ok` and `resp.xfer_ok`. -/
def Obligations.TransportStatusNeverSteers : Prop :=
  ∀ (s t : State) (i : Instr) (c c' : Completion) (changes : List DeviceChange),
    s.phase ≠ .idle → c'.rx = c.rx → s.xrsp = some (.general c changes) → exec i s = .next t → isCommand i = false →
    ∃ ok xfer, exec i { s with xrsp := some (.general c' changes) } =
      .next { t with accOk := ok, resp := { t.resp with xferOk := xfer } }

/-- R59, R110: what stands on the command port while a command runs has no effect on the engine's steps. -/
def Obligations.PortReadAtAcceptOnly : Prop :=
  ∀ (s t : State) (v : Bool) (w : CmdWord) (c : DeviceConfig),
    engineNext s = true → s.phase ≠ .idle → step s = .next t →
    step { s with cmdValid := v, cmdWord := w, cmdCfg := c } = .next { t with cmdValid := v, cmdWord := w, cmdCfg := c }

/-- R34, R143: no accept reads a flag: from two states that differ only in `resp.*` and `acc_ok`, a legal command leads to
states that differ only in the response fields it has not yet rewritten. -/
def Obligations.EarlierFlagsNeverRead : Prop :=
  ∀ (s t : State) (i : Instr) (r : Resp) (ok : Bool),
    s.phase = .idle → isCommand i = true → i.wellFormed = true → exec i s = .next t →
    exec i { s with resp := r, accOk := ok } = .next { t with resp := { r with valid := false } }

/-- R140, R141: a command ends where a presented word is rejected, or where a step other than reset leads from a busy phase to
IDLE. Every such end leaves a response that is a row of the table, for a read command (REGRD, PORTRD: the phase RD) and for the
others; the row is that of the rejection exactly where a word was rejected; and no step but an end makes the response valid. -/
def Obligations.CommandEndsInTable : Prop :=
  ∀ s t : State, s.resetIn = false → step s = .next t →
    ((engineNext s = true ∧ s.phase = .idle ∧ s.cmdValid = true ∧ ∃ e, decodeCmd s.cmdWord = .error e) →
      ∀ isRead, commandEnd isRead t.resp = some .rejected) ∧
    (s.phase ≠ .idle → t.phase = .idle →
      ∃ row, commandEnd (s.phase == .rd) t.resp = some row ∧ row ≠ .rejected ∧
        (row = .cleanRead ∨ row = .failedRead ↔ s.phase = .rd)) ∧
    (s.resp.valid = false → t.resp.valid = true →
      (engineNext s = true ∧ s.phase = .idle ∧ s.cmdValid = true ∧ ∃ e, decodeCmd s.cmdWord = .error e) ∨
        (s.phase ≠ .idle ∧ t.phase = .idle))

/-- R172: a finish with no command presented and none to come ends the run. -/
def Obligations.LastFinishEndsRun : Prop :=
  ∀ s t : State, s.resetIn = false → s.phase ≠ .idle → step s = .next t → t.phase = .idle → s.cmdValid = false →
    s.env.any EnvMove.presents = false → runEnded t = true

/-! ## Whole commands -/

/-- R63: a location reads back the byte written last, every other location is untouched by the write, and a location nothing
was written to reads as `DevInit`. -/
def Obligations.DeviceReadsBackLastWrite : Prop :=
  (∀ (m : Memory) (a : DeviceAddress) (r : RegNum) (v : Byte), devRead (devWrite m a r v) a r = v) ∧
  (∀ (m : Memory) (a a' : DeviceAddress) (r r' : RegNum) (v : Byte), (a', r') ≠ (a, r) →
    devRead (devWrite m a r v) a' r' = devRead m a' r') ∧
  (∀ (a : DeviceAddress) (r : RegNum), devRead [] a r = Config.devInit (16 * a.toNat + r.toNat))

/-- R103, R105, R107: a register read, whatever the transport answers: accept, one exchange of the read frame, and the response
with the byte received and the status. The transport's answer is the environment's next move. -/
def Obligations.RegisterReadRuns : Prop :=
  ∀ (s : State) (reg : RegNum) (c : Completion) (changes : List DeviceChange) (rest : List EnvMove),
    s.phase = .idle → s.resetIn = false → s.cmdValid = true → s.xrsp = none → reg ≤ 0xA#4 →
    (decodeCmd s.cmdWord = .ok (.regrd reg) ∨ (decodeCmd s.cmdWord = .ok .portrd ∧ reg = 0x9#4)) →
    s.env = .letEngine :: .answer (.general c changes) :: .letEngine :: rest →
    (∃ t, runSteps 1 s = .next t ∧ t.tx = encodeRead s.cmdCfg.address reg ∧ xreqValid t = true) ∧
    ∃ t, runSteps 3 s = .next t ∧ t.phase = .idle ∧ t.env = rest ∧ t.mem = applyChanges changes s.mem ∧
      t.resp = { valid := true, verified := false, byte := c.rx.b2, xferOk := !c.fail, illegal := false }

/-- R104, R106, R107: a register write, whatever the transport answers: the write frame, then the read of the same register
even if the write failed; `verified` iff the byte read back is the value, `xfer_ok` iff neither exchange failed. -/
def Obligations.RegisterWriteRuns : Prop :=
  ∀ (s : State) (reg : RegNum) (v : Byte) (c1 c2 : Completion) (ch1 ch2 : List DeviceChange) (rest : List EnvMove),
    s.phase = .idle → s.resetIn = false → s.cmdValid = true → s.xrsp = none → reg ≤ 0xA#4 →
    (decodeCmd s.cmdWord = .ok (.regwr reg v) ∨ (decodeCmd s.cmdWord = .ok (.portwr v) ∧ reg = 0x9#4)) →
    s.env = .letEngine :: .answer (.general c1 ch1) :: .letEngine :: .answer (.general c2 ch2) :: .letEngine :: rest →
    (∃ t, runSteps 1 s = .next t ∧ t.tx = encodeWrite s.cmdCfg.address reg v ∧ xreqValid t = true) ∧
    (∃ t, runSteps 3 s = .next t ∧ t.tx = encodeRead s.cmdCfg.address reg ∧ xreqValid t = true) ∧
    ∃ t, runSteps 5 s = .next t ∧ t.phase = .idle ∧ t.env = rest ∧ t.mem = applyChanges ch2 (applyChanges ch1 s.mem) ∧
      t.resp =
        { valid := true, verified := c2.rx.b2 == v, byte := c2.rx.b2, xferOk := !c1.fail && !c2.fail,
          illegal := false }

/-- R63, R104, R106: under IdealDevice a register write always verifies, stores the value and touches no other location. -/
def Obligations.RegisterWriteVerifiesOnIdealDevice : Prop :=
  ∀ (s : State) (reg : RegNum) (v : Byte) (rest : List EnvMove),
    s.phase = .idle → s.resetIn = false → s.cmdValid = true → s.xrsp = none → reg ≤ 0xA#4 →
    (decodeCmd s.cmdWord = .ok (.regwr reg v) ∨ (decodeCmd s.cmdWord = .ok (.portwr v) ∧ reg = 0x9#4)) →
    s.env = .letEngine :: .answer .idealDevice :: .letEngine :: .answer .idealDevice :: .letEngine :: rest →
    ∃ t, runSteps 5 s = .next t ∧ t.phase = .idle ∧ t.env = rest ∧
      t.resp = { valid := true, verified := true, byte := v, xferOk := true, illegal := false } ∧
      devRead t.mem s.cmdCfg.address reg = v ∧
      ∀ (a' : DeviceAddress) (r' : RegNum), (a', r') ≠ (s.cmdCfg.address, reg) →
        devRead t.mem a' r' = devRead s.mem a' r'

/-- R64: under CorruptingDevice a register write never verifies, whatever its fixed function `g` is (log 12). -/
def Obligations.RegisterWriteFailsOnCorruptingDevice : Prop :=
  ∀ (s : State) (reg : RegNum) (v : Byte) (rest : List EnvMove),
    s.phase = .idle → s.resetIn = false → s.cmdValid = true → s.xrsp = none → reg ≤ 0xA#4 →
    (decodeCmd s.cmdWord = .ok (.regwr reg v) ∨ (decodeCmd s.cmdWord = .ok (.portwr v) ∧ reg = 0x9#4)) →
    s.env = .letEngine :: .answer .corruptingDevice :: .letEngine :: .answer .corruptingDevice :: .letEngine :: rest →
    ∃ t, runSteps 5 s = .next t ∧ t.phase = .idle ∧ t.resp.valid = true ∧ t.resp.verified = false ∧
      t.resp.byte ≠ v ∧ t.resp.xferOk = true

/-- R120 to R123: INIT, whatever the transport answers to its ten exchanges: `verified` iff the last byte received is the
configured configuration byte, `xfer_ok` iff no exchange failed, and the device state follows `verified` (R125). The frames
on the wire, exchange by exchange, are those of R121. -/
def Obligations.InitRuns : Prop :=
  ∀ (s : State) (answers : List (Completion × List DeviceChange)) (last : Completion) (lastChanges : List DeviceChange)
    (rest : List EnvMove),
    s.phase = .idle → s.resetIn = false → s.cmdValid = true → s.xrsp = none → decodeCmd s.cmdWord = .ok .init →
    answers.length = 9 →
    s.env = .letEngine ::
      ((answers.map (fun p : Completion × List DeviceChange => Answer.general p.1 p.2)) ++
        [Answer.general last lastChanges]).flatMap exchangeMoves ++ rest →
    (∀ k : Fin 9, ∃ t, runSteps (2 * k.val + 1) s = .next t ∧ t.phase = .initW k ∧
      t.tx = encodeWrite s.cmdCfg.address (initReg k).number (initVal s.cmdCfg.rc k)) ∧
    (∃ t, runSteps 19 s = .next t ∧ t.phase = .initRb ∧ t.tx = encodeRead s.cmdCfg.address 0x5#4) ∧
    ∃ t, runSteps 21 s = .next t ∧ t.phase = .idle ∧ t.env = rest ∧
      t.resp =
        { valid := true, verified := last.rx.b2 == s.cmdCfg.rc.configuration, byte := last.rx.b2,
          xferOk := answers.all (fun p => !p.1.fail) && !last.fail, illegal := false } ∧
      devStateAt t s.cmdCfg.address =
        (if last.rx.b2 == s.cmdCfg.rc.configuration then .initialized else .uninitialized)

/-- R121: the order of INIT's nine writes, register by register and value by value; the frame of each, and of the read-back;
and that none of them is of the two read-only registers. -/
def Obligations.InitWriteOrder : Prop :=
  ((List.finRange 9).map (fun k => (initReg k).number)) =
    [0x5#4, 0x0#4, 0x1#4, 0x2#4, 0x3#4, 0x4#4, 0x6#4, 0x9#4, 0xA#4] ∧
  (∀ rc : RegisterConfig, ((List.finRange 9).map (initVal rc)) =
    [rc.configuration, rc.direction, rc.polarity, rc.interruptEnable, rc.defaultCompare, rc.interruptControl, rc.pullUp,
      rc.port, rc.outputLatch]) ∧
  (∀ k : Fin 9, Phase.code (.initW k) = BitVec.ofNat 4 (k.val + 1)) ∧
  (∀ (k : Fin 9) (l : Latches), frameFor (.initW k) l =
    some { b0 := 0x40#8 ||| (l.addr.setWidth 8 <<< 1), b1 := (initReg k).number.setWidth 8, b2 := initVal l.rc k }) ∧
  (∀ l : Latches, frameFor .initRb l =
    some { b0 := 0x41#8 ||| (l.addr.setWidth 8 <<< 1), b1 := 0x05#8, b2 := 0x00#8 }) ∧
  (∀ k : Fin 9, (initReg k).number ≠ 0x7#4 ∧ (initReg k).number ≠ 0x8#4)

/-- R124, R125: under IdealDevice INIT verifies, the device is Initialized, each of the nine registers holds its configured
byte, and every other location, the two read-only registers among them, is untouched. -/
def Obligations.InitConfiguresIdealDevice : Prop :=
  ∀ (s : State) (rest : List EnvMove),
    s.phase = .idle → s.resetIn = false → s.cmdValid = true → s.xrsp = none → decodeCmd s.cmdWord = .ok .init →
    s.env = .letEngine :: (List.replicate 10 Answer.idealDevice).flatMap exchangeMoves ++ rest →
    ∃ t, runSteps 21 s = .next t ∧ t.phase = .idle ∧ t.env = rest ∧
      t.resp = { valid := true, verified := true, byte := s.cmdCfg.rc.configuration, xferOk := true, illegal := false } ∧
      devStateAt t s.cmdCfg.address = .initialized ∧
      (∀ k : Fin 9, devRead t.mem s.cmdCfg.address (initReg k).number = initVal s.cmdCfg.rc k) ∧
      (∀ (a : DeviceAddress) (r : RegNum),
        (a ≠ s.cmdCfg.address ∨ (∀ k : Fin 9, r ≠ (initReg k).number)) → devRead t.mem a r = devRead s.mem a r)

/-- R107: each legal command sends a fixed number of exchanges, whatever the transport answers (INIT 10, REGRD and PORTRD 1,
REGWR and PORTWR 2): with just that many answers to come, and the engine's turns between them (log 1), it is back in IDLE with a valid response, each
answer having taken the transport's move and the engine's, and it is busy until then; an illegal word sends none. -/
def Obligations.CommandsTakeFixedExchanges : Prop :=
  (∀ (s : State) (i : Instr) (answers : List Answer) (rest : List EnvMove),
    EngineInv s → s.phase = .idle → s.resetIn = false → s.cmdValid = true → decodeCmd s.cmdWord = .ok i →
    answers.length = exchangesOf i → s.env = .letEngine :: answers.flatMap exchangeMoves ++ rest →
    (∃ t, runSteps (1 + 2 * answers.length) s = .next t ∧ t.phase = .idle ∧ t.resp.valid = true ∧ t.env = rest) ∧
    ∀ n t, 1 ≤ n → n < 1 + 2 * answers.length → runSteps n s = .next t → t.phase ≠ .idle) ∧
  (∀ (s : State) (e : DecodeError), engineNext s = true → s.phase = .idle → s.cmdValid = true →
    decodeCmd s.cmdWord = .error e →
    ∃ t, step s = .next t ∧ t.phase = .idle ∧ t.resp.valid = true ∧ t.env = s.env.tail) ∧
  exchangesOf .init = 10 ∧ exchangesOf .portrd = 1 ∧
  (∀ v, exchangesOf (.portwr v) = 2) ∧ (∀ r, r ≤ 0xA#4 → exchangesOf (.regrd r) = 1) ∧
  (∀ r v, r ≤ 0xA#4 → exchangesOf (.regwr r v) = 2)

/-! ## The assembler -/

/-- R80, R82: the word of each mnemonic, that disassembly inverts the table for every legal word, the eleven register names, and
that the text of every word prints its register operand by name and an illegal word as `.word` (R79; the text's digits and blanks
are log 22). -/
def Obligations.AssemblerWords : Prop :=
  commandWord .init = some 0x1000#16 ∧ commandWord .portrd = some 0x4000#16 ∧
  (∀ v : Byte, commandWord (.portwr v) = some (0x5000#16 ||| v.setWidth 16)) ∧
  (∀ r : RegNum, r ≤ 0xA#4 → commandWord (.regrd r) = some (0x2000#16 ||| (r.setWidth 16 <<< 8))) ∧
  (∀ (r : RegNum) (v : Byte), r ≤ 0xA#4 →
    commandWord (.regwr r v) = some (0x3000#16 ||| (r.setWidth 16 <<< 8) ||| v.setWidth 16)) ∧
  (∀ (i : Instr) (w : CmdWord), commandWord i = some w → disassemble w = .command i) ∧
  regText 0x0#4 = "DIRECTION".toList ∧ regText 0x1#4 = "INPUT_POLARITY".toList ∧
  regText 0x2#4 = "INTERRUPT_ENABLE".toList ∧ regText 0x3#4 = "DEFAULT_COMPARE".toList ∧
  regText 0x4#4 = "INTERRUPT_CONTROL".toList ∧ regText 0x5#4 = "CONFIGURATION".toList ∧
  regText 0x6#4 = "PULL_UP".toList ∧ regText 0x7#4 = "INTERRUPT_FLAG".toList ∧
  regText 0x8#4 = "INTERRUPT_CAPTURE".toList ∧ regText 0x9#4 = "PORT".toList ∧
  regText 0xA#4 = "OUTPUT_LATCH".toList ∧
  (∀ (w : CmdWord) (r : RegNum), decodeCmd w = .ok (.regrd r) → disassemblyText w = "REGRD ".toList ++ regText r) ∧
  (∀ (w : CmdWord) (r : RegNum) (v : Byte), decodeCmd w = .ok (.regwr r v) →
    disassemblyText w = "REGWR ".toList ++ regText r ++ ", ".toList ++ byteText v) ∧
  (∀ (w : CmdWord) (v : Byte), decodeCmd w = .ok (.portwr v) → disassemblyText w = "PORTWR ".toList ++ byteText v) ∧
  (∀ w : CmdWord, decodeCmd w = .ok .init → disassemblyText w = "INIT".toList) ∧
  (∀ w : CmdWord, decodeCmd w = .ok .portrd → disassemblyText w = "PORTRD".toList) ∧
  (∀ (w : CmdWord) (e : DecodeError), decodeCmd w = .error e → disassemblyText w = ".word ".toList ++ wordText w) ∧
  wordText 0xBEEF#16 = "0xBEEF".toList ∧ byteText 0x5A#8 = "0x5A".toList ∧
  (∀ r : RegNum, r ≤ 0xA#4 → parseReg (regText r) = some r)

/-- R79, R82: assembling what any word, legal or not, disassembles to gives the word back, with the side-band in force. -/
def Obligations.DisassemblyReassembles : Prop :=
  ∀ (w : CmdWord) (c : DeviceConfig), assembleFrom c [disassemble w] = some [(w, c)]
end

