-- ==== Sys2Proof/Laws/Memory.lean ====
section
/-! SUPPORT. The expanders' registers: read after write, the other locations, and that every operation keeps the canonical
form. -/

namespace Sys2Proof.Machine

@[simp] theorem Memory.lookup_put_same (m : Memory) (key : Nat) (v : Byte) : (m.put key v).lookup key = some v := by
  induction m with
  | nil => simp [Memory.put, Memory.lookup]
  | cons c m ih =>
    simp only [Memory.put]
    split
    · simp [Memory.lookup]
    · split
      · simp [Memory.lookup]
      · rename_i h
        simp [Memory.lookup, Ne.symm h, ih]

theorem Memory.lookup_put_other (m : Memory) {key key' : Nat} (v : Byte) (h : key' ≠ key) :
    (m.put key v).lookup key' = m.lookup key' := by
  induction m with
  | nil => simp [Memory.put, Memory.lookup, Ne.symm h]
  | cons c m ih =>
    simp only [Memory.put]
    split
    · simp [Memory.lookup, Ne.symm h]
    · split
      · rename_i hk
        subst hk
        simp [Memory.lookup, Ne.symm h]
      · simp [Memory.lookup, ih]

theorem Memory.mem_put {m : Memory} {key : Nat} {v : Byte} {c : Host.Cell} (h : c ∈ m.put key v) :
    c = (key, v) ∨ c ∈ m := by
  induction m with
  | nil => simpa [Memory.put] using h
  | cons d m ih =>
    simp only [Memory.put] at h
    split at h
    · simpa using h
    · split at h
      · rcases List.mem_cons.1 h with h | h
        · exact .inl h
        · exact .inr (List.mem_cons_of_mem _ h)
      · rcases List.mem_cons.1 h with h | h
        · exact .inr (h ▸ List.mem_cons_self)
        · exact (ih h).imp id (List.mem_cons_of_mem _)

theorem Memory.put_rising {m : Memory} (h : m.Pairwise (fun c d => c.1 < d.1)) (key : Nat) (v : Byte) :
    (m.put key v).Pairwise (fun c d => c.1 < d.1) := by
  induction m with
  | nil => simp [Memory.put]
  | cons c m ih =>
    obtain ⟨hc, hm⟩ := List.pairwise_cons.1 h
    simp only [Memory.put]
    split
    · rename_i hlt
      refine List.pairwise_cons.2 ⟨fun d hd => ?_, h⟩
      rcases List.mem_cons.1 hd with rfl | hd
      · exact hlt
      · exact lt_trans hlt (hc d hd)
    · split
      · rename_i heq
        exact List.pairwise_cons.2 ⟨fun d hd => heq ▸ hc d hd, hm⟩
      · refine List.pairwise_cons.2 ⟨fun d hd => ?_, ih hm⟩
        rcases Memory.mem_put hd with rfl | hd
        · simp only; omega
        · exact hc d hd

theorem Memory.put_wf {m : Memory} (h : m.wf) {key : Nat} (hk : inDevSpace key = true) (v : Byte) : (m.put key v).wf := by
  refine ⟨Memory.put_rising h.1 key v, fun c hc => ?_⟩
  rcases Memory.mem_put hc with rfl | hc
  · exact hk
  · exact h.2 c hc

theorem devKey_inj {a a' : DeviceAddress} {r r' : RegNum} : devKey a r = devKey a' r' ↔ a = a' ∧ r = r' := by
  constructor
  · intro h
    simp only [devKey] at h
    have h1 := r.isLt
    have h2 := r'.isLt
    exact ⟨BitVec.eq_of_toNat_eq (by omega), BitVec.eq_of_toNat_eq (by omega)⟩
  · rintro ⟨rfl, rfl⟩
    rfl

theorem devKey_inDevSpace (a : DeviceAddress) {r : RegNum} (h : regNamed r = true) : inDevSpace (devKey a r) = true := by
  have h1 : r.toNat ≤ 10 := by simpa [regNamed, Config.maxReg, BitVec.le_def] using h
  have h2 := a.isLt
  have h3 : 16 * a.toNat + r.toNat < 64 ∧ (16 * a.toNat + r.toNat) % 16 ≤ 10 := by omega
  unfold inDevSpace devKey
  rw [decide_eq_true h3.1, decide_eq_true h3.2]
  rfl

@[simp] theorem regNamed_number (r : RegisterId) : regNamed r.number = true := by cases r <;> decide

theorem devWrite_wf {m : Memory} (h : m.wf) (a : DeviceAddress) {r : RegNum} (hr : regNamed r = true) (v : Byte) :
    (devWrite m a r v).wf := Memory.put_wf h (devKey_inDevSpace a hr) v

theorem applyChanges_wf (cs : List DeviceChange) {m : Memory} (h : m.wf) : (applyChanges cs m).wf := by
  induction cs generalizing m with
  | nil => exact h
  | cons c cs ih => exact ih (devWrite_wf h c.address (regNamed_number c.reg) c.value)

end Sys2Proof.Machine
end

