-- ==== Sys2Proof/Laws/State.lean ====
section
/-! SUPPORT. Each field of the state after each update: true by unfolding, for simp. -/

namespace Sys2Proof.Machine

/-! ## enter (R100 Enter) -/

@[simp] theorem enter_cmdValid (p : Phase) (s : State) : (enter p s).cmdValid = s.cmdValid := rfl
@[simp] theorem enter_cmdWord (p : Phase) (s : State) : (enter p s).cmdWord = s.cmdWord := rfl
@[simp] theorem enter_cmdCfg (p : Phase) (s : State) : (enter p s).cmdCfg = s.cmdCfg := rfl
@[simp] theorem enter_resetIn (p : Phase) (s : State) : (enter p s).resetIn = s.resetIn := rfl
@[simp] theorem enter_phase (p : Phase) (s : State) : (enter p s).phase = p := rfl
@[simp] theorem enter_latch (p : Phase) (s : State) : (enter p s).latch = s.latch := rfl
@[simp] theorem enter_tx (p : Phase) (s : State) : (enter p s).tx = (frameFor p s.latch).getD s.tx := rfl
@[simp] theorem enter_rx (p : Phase) (s : State) : (enter p s).rx = Frame.zero := rfl
@[simp] theorem enter_accOk (p : Phase) (s : State) : (enter p s).accOk = s.accOk := rfl
@[simp] theorem enter_resp (p : Phase) (s : State) : (enter p s).resp = s.resp := rfl
@[simp] theorem enter_xrsp (p : Phase) (s : State) : (enter p s).xrsp = s.xrsp := rfl
@[simp] theorem enter_mem (p : Phase) (s : State) : (enter p s).mem = s.mem := rfl
@[simp] theorem enter_devState (p : Phase) (s : State) : (enter p s).devState = s.devState := rfl
@[simp] theorem enter_contractViolated (p : Phase) (s : State) :
    (enter p s).contractViolated = s.contractViolated := rfl
@[simp] theorem enter_everAccepted (p : Phase) (s : State) : (enter p s).everAccepted = s.everAccepted := rfl
@[simp] theorem enter_env (p : Phase) (s : State) : (enter p s).env = s.env := rfl
@[simp] theorem enter_freeCount (p : Phase) (s : State) : (enter p s).freeCount = s.freeCount := rfl

/-! ## acceptCommand (R100 Accept) -/

@[simp] theorem acceptCommand_cmdValid (l : Latches) (b : Bool) (p : Phase) (s : State) :
    (acceptCommand l b p s).cmdValid = false := rfl
@[simp] theorem acceptCommand_cmdWord (l : Latches) (b : Bool) (p : Phase) (s : State) :
    (acceptCommand l b p s).cmdWord = s.cmdWord := rfl
@[simp] theorem acceptCommand_cmdCfg (l : Latches) (b : Bool) (p : Phase) (s : State) :
    (acceptCommand l b p s).cmdCfg = s.cmdCfg := rfl
@[simp] theorem acceptCommand_resetIn (l : Latches) (b : Bool) (p : Phase) (s : State) :
    (acceptCommand l b p s).resetIn = s.resetIn := rfl
@[simp] theorem acceptCommand_phase (l : Latches) (b : Bool) (p : Phase) (s : State) :
    (acceptCommand l b p s).phase = p := rfl
@[simp] theorem acceptCommand_latch (l : Latches) (b : Bool) (p : Phase) (s : State) :
    (acceptCommand l b p s).latch = l := rfl
@[simp] theorem acceptCommand_tx (l : Latches) (b : Bool) (p : Phase) (s : State) :
    (acceptCommand l b p s).tx = (frameFor p l).getD s.tx := rfl
@[simp] theorem acceptCommand_rx (l : Latches) (b : Bool) (p : Phase) (s : State) :
    (acceptCommand l b p s).rx = Frame.zero := rfl
@[simp] theorem acceptCommand_accOk (l : Latches) (b : Bool) (p : Phase) (s : State) :
    (acceptCommand l b p s).accOk = true := rfl
@[simp] theorem acceptCommand_resp (l : Latches) (b : Bool) (p : Phase) (s : State) :
    (acceptCommand l b p s).resp = { s.resp with valid := false } := rfl
@[simp] theorem acceptCommand_xrsp (l : Latches) (b : Bool) (p : Phase) (s : State) :
    (acceptCommand l b p s).xrsp = s.xrsp := rfl
@[simp] theorem acceptCommand_mem (l : Latches) (b : Bool) (p : Phase) (s : State) :
    (acceptCommand l b p s).mem = s.mem := rfl
@[simp] theorem acceptCommand_devState (l : Latches) (b : Bool) (p : Phase) (s : State) :
    (acceptCommand l b p s).devState = s.devState := rfl
@[simp] theorem acceptCommand_contractViolated (l : Latches) (b : Bool) (p : Phase) (s : State) :
    (acceptCommand l b p s).contractViolated = contractMark b l.addr s := rfl
@[simp] theorem acceptCommand_everAccepted (l : Latches) (b : Bool) (p : Phase) (s : State) :
    (acceptCommand l b p s).everAccepted = true := rfl
@[simp] theorem acceptCommand_env (l : Latches) (b : Bool) (p : Phase) (s : State) :
    (acceptCommand l b p s).env = s.env := rfl
@[simp] theorem acceptCommand_freeCount (l : Latches) (b : Bool) (p : Phase) (s : State) :
    (acceptCommand l b p s).freeCount = s.freeCount := rfl

/-! ## raiseIllegal (R139) -/

@[simp] theorem raiseIllegal_cmdValid (s : State) : (raiseIllegal s).cmdValid = false := rfl
@[simp] theorem raiseIllegal_cmdWord (s : State) : (raiseIllegal s).cmdWord = s.cmdWord := rfl
@[simp] theorem raiseIllegal_cmdCfg (s : State) : (raiseIllegal s).cmdCfg = s.cmdCfg := rfl
@[simp] theorem raiseIllegal_resetIn (s : State) : (raiseIllegal s).resetIn = s.resetIn := rfl
@[simp] theorem raiseIllegal_phase (s : State) : (raiseIllegal s).phase = s.phase := rfl
@[simp] theorem raiseIllegal_latch (s : State) : (raiseIllegal s).latch = s.latch := rfl
@[simp] theorem raiseIllegal_tx (s : State) : (raiseIllegal s).tx = s.tx := rfl
@[simp] theorem raiseIllegal_rx (s : State) : (raiseIllegal s).rx = s.rx := rfl
@[simp] theorem raiseIllegal_accOk (s : State) : (raiseIllegal s).accOk = s.accOk := rfl
@[simp] theorem raiseIllegal_resp (s : State) : (raiseIllegal s).resp = illegalResp := rfl
@[simp] theorem raiseIllegal_xrsp (s : State) : (raiseIllegal s).xrsp = s.xrsp := rfl
@[simp] theorem raiseIllegal_mem (s : State) : (raiseIllegal s).mem = s.mem := rfl
@[simp] theorem raiseIllegal_devState (s : State) : (raiseIllegal s).devState = s.devState := rfl
@[simp] theorem raiseIllegal_contractViolated (s : State) :
    (raiseIllegal s).contractViolated = s.contractViolated := rfl
@[simp] theorem raiseIllegal_everAccepted (s : State) : (raiseIllegal s).everAccepted = true := rfl
@[simp] theorem raiseIllegal_env (s : State) : (raiseIllegal s).env = s.env := rfl
@[simp] theorem raiseIllegal_freeCount (s : State) : (raiseIllegal s).freeCount = s.freeCount := rfl

/-! ## finish (R102 Finish) -/

@[simp] theorem finish_cmdValid (v : Bool) (b : Byte) (s : State) : (finish v b s).cmdValid = s.cmdValid := rfl
@[simp] theorem finish_cmdWord (v : Bool) (b : Byte) (s : State) : (finish v b s).cmdWord = s.cmdWord := rfl
@[simp] theorem finish_cmdCfg (v : Bool) (b : Byte) (s : State) : (finish v b s).cmdCfg = s.cmdCfg := rfl
@[simp] theorem finish_resetIn (v : Bool) (b : Byte) (s : State) : (finish v b s).resetIn = s.resetIn := rfl
@[simp] theorem finish_phase (v : Bool) (b : Byte) (s : State) : (finish v b s).phase = .idle := rfl
@[simp] theorem finish_latch (v : Bool) (b : Byte) (s : State) : (finish v b s).latch = s.latch := rfl
@[simp] theorem finish_tx (v : Bool) (b : Byte) (s : State) : (finish v b s).tx = s.tx := rfl
@[simp] theorem finish_rx (v : Bool) (b : Byte) (s : State) : (finish v b s).rx = s.rx := rfl
@[simp] theorem finish_accOk (v : Bool) (b : Byte) (s : State) : (finish v b s).accOk = s.accOk := rfl
@[simp] theorem finish_resp (v : Bool) (b : Byte) (s : State) : (finish v b s).resp = finishResp v b s.accOk := rfl
@[simp] theorem finish_xrsp (v : Bool) (b : Byte) (s : State) : (finish v b s).xrsp = s.xrsp := rfl
@[simp] theorem finish_mem (v : Bool) (b : Byte) (s : State) : (finish v b s).mem = s.mem := rfl
@[simp] theorem finish_devState (v : Bool) (b : Byte) (s : State) : (finish v b s).devState = s.devState := rfl
@[simp] theorem finish_contractViolated (v : Bool) (b : Byte) (s : State) :
    (finish v b s).contractViolated = s.contractViolated := rfl
@[simp] theorem finish_everAccepted (v : Bool) (b : Byte) (s : State) :
    (finish v b s).everAccepted = s.everAccepted := rfl
@[simp] theorem finish_env (v : Bool) (b : Byte) (s : State) : (finish v b s).env = s.env := rfl
@[simp] theorem finish_freeCount (v : Bool) (b : Byte) (s : State) : (finish v b s).freeCount = s.freeCount := rfl

/-! ## receive (R101) -/

@[simp] theorem receive_cmdValid (c : Completion) (s : State) : (receive c s).cmdValid = s.cmdValid := rfl
@[simp] theorem receive_cmdWord (c : Completion) (s : State) : (receive c s).cmdWord = s.cmdWord := rfl
@[simp] theorem receive_cmdCfg (c : Completion) (s : State) : (receive c s).cmdCfg = s.cmdCfg := rfl
@[simp] theorem receive_resetIn (c : Completion) (s : State) : (receive c s).resetIn = s.resetIn := rfl
@[simp] theorem receive_phase (c : Completion) (s : State) : (receive c s).phase = s.phase := rfl
@[simp] theorem receive_latch (c : Completion) (s : State) : (receive c s).latch = s.latch := rfl
@[simp] theorem receive_tx (c : Completion) (s : State) : (receive c s).tx = s.tx := rfl
@[simp] theorem receive_rx (c : Completion) (s : State) : (receive c s).rx = c.rx := rfl
@[simp] theorem receive_accOk (c : Completion) (s : State) : (receive c s).accOk = accumulateOk s.accOk c.fail := rfl
@[simp] theorem receive_resp (c : Completion) (s : State) : (receive c s).resp = s.resp := rfl
@[simp] theorem receive_xrsp (c : Completion) (s : State) : (receive c s).xrsp = none := rfl
@[simp] theorem receive_mem (c : Completion) (s : State) : (receive c s).mem = s.mem := rfl
@[simp] theorem receive_devState (c : Completion) (s : State) : (receive c s).devState = s.devState := rfl
@[simp] theorem receive_contractViolated (c : Completion) (s : State) :
    (receive c s).contractViolated = s.contractViolated := rfl
@[simp] theorem receive_everAccepted (c : Completion) (s : State) : (receive c s).everAccepted = s.everAccepted := rfl
@[simp] theorem receive_env (c : Completion) (s : State) : (receive c s).env = s.env := rfl
@[simp] theorem receive_freeCount (c : Completion) (s : State) : (receive c s).freeCount = s.freeCount := rfl

/-! ## markDevice (R125) -/

@[simp] theorem markDevice_cmdValid (a : DeviceAddress) (v : Bool) (s : State) :
    (markDevice a v s).cmdValid = s.cmdValid := rfl
@[simp] theorem markDevice_cmdWord (a : DeviceAddress) (v : Bool) (s : State) :
    (markDevice a v s).cmdWord = s.cmdWord := rfl
@[simp] theorem markDevice_cmdCfg (a : DeviceAddress) (v : Bool) (s : State) :
    (markDevice a v s).cmdCfg = s.cmdCfg := rfl
@[simp] theorem markDevice_resetIn (a : DeviceAddress) (v : Bool) (s : State) :
    (markDevice a v s).resetIn = s.resetIn := rfl
@[simp] theorem markDevice_phase (a : DeviceAddress) (v : Bool) (s : State) : (markDevice a v s).phase = s.phase := rfl
@[simp] theorem markDevice_latch (a : DeviceAddress) (v : Bool) (s : State) : (markDevice a v s).latch = s.latch := rfl
@[simp] theorem markDevice_tx (a : DeviceAddress) (v : Bool) (s : State) : (markDevice a v s).tx = s.tx := rfl
@[simp] theorem markDevice_rx (a : DeviceAddress) (v : Bool) (s : State) : (markDevice a v s).rx = s.rx := rfl
@[simp] theorem markDevice_accOk (a : DeviceAddress) (v : Bool) (s : State) : (markDevice a v s).accOk = s.accOk := rfl
@[simp] theorem markDevice_resp (a : DeviceAddress) (v : Bool) (s : State) : (markDevice a v s).resp = s.resp := rfl
@[simp] theorem markDevice_xrsp (a : DeviceAddress) (v : Bool) (s : State) : (markDevice a v s).xrsp = s.xrsp := rfl
@[simp] theorem markDevice_mem (a : DeviceAddress) (v : Bool) (s : State) : (markDevice a v s).mem = s.mem := rfl
@[simp] theorem markDevice_devState (a : DeviceAddress) (v : Bool) (s : State) :
    (markDevice a v s).devState = s.devState.set a.toNat (if v then .initialized else .uninitialized) a.isLt := rfl
@[simp] theorem markDevice_contractViolated (a : DeviceAddress) (v : Bool) (s : State) :
    (markDevice a v s).contractViolated = s.contractViolated := rfl
@[simp] theorem markDevice_everAccepted (a : DeviceAddress) (v : Bool) (s : State) :
    (markDevice a v s).everAccepted = s.everAccepted := rfl
@[simp] theorem markDevice_env (a : DeviceAddress) (v : Bool) (s : State) : (markDevice a v s).env = s.env := rfl
@[simp] theorem markDevice_freeCount (a : DeviceAddress) (v : Bool) (s : State) :
    (markDevice a v s).freeCount = s.freeCount := rfl

/-! ## resetEngine (R160) -/

@[simp] theorem resetEngine_cmdValid (s : State) : (resetEngine s).cmdValid = s.cmdValid := rfl
@[simp] theorem resetEngine_cmdWord (s : State) : (resetEngine s).cmdWord = s.cmdWord := rfl
@[simp] theorem resetEngine_cmdCfg (s : State) : (resetEngine s).cmdCfg = s.cmdCfg := rfl
@[simp] theorem resetEngine_resetIn (s : State) : (resetEngine s).resetIn = false := rfl
@[simp] theorem resetEngine_phase (s : State) : (resetEngine s).phase = .idle := rfl
@[simp] theorem resetEngine_latch (s : State) : (resetEngine s).latch = Latches.reset := rfl
@[simp] theorem resetEngine_tx (s : State) : (resetEngine s).tx = Frame.zero := rfl
@[simp] theorem resetEngine_rx (s : State) : (resetEngine s).rx = Frame.zero := rfl
@[simp] theorem resetEngine_accOk (s : State) : (resetEngine s).accOk = true := rfl
@[simp] theorem resetEngine_resp (s : State) : (resetEngine s).resp = Resp.reset := rfl
@[simp] theorem resetEngine_xrsp (s : State) : (resetEngine s).xrsp = none := rfl
@[simp] theorem resetEngine_mem (s : State) : (resetEngine s).mem = memAfterCutOff s := rfl
@[simp] theorem resetEngine_devState (s : State) : (resetEngine s).devState = Vector.replicate 4 .uninitialized := rfl
@[simp] theorem resetEngine_contractViolated (s : State) : (resetEngine s).contractViolated = s.contractViolated := rfl
@[simp] theorem resetEngine_everAccepted (s : State) : (resetEngine s).everAccepted = s.everAccepted := rfl
@[simp] theorem resetEngine_env (s : State) : (resetEngine s).env = s.env := rfl
@[simp] theorem resetEngine_freeCount (s : State) : (resetEngine s).freeCount = s.freeCount + 1 := rfl

/-! ## answerWrite (R52, R64): the expander's registers and the free values drawn are all it changes -/

@[simp] theorem answerWrite_cmdValid (a : Answer) (d : DeviceAddress) (r : RegNum) (v : Byte) (s : State) :
    (answerWrite a d r v s).2.cmdValid = s.cmdValid := by cases a <;> rfl
@[simp] theorem answerWrite_cmdWord (a : Answer) (d : DeviceAddress) (r : RegNum) (v : Byte) (s : State) :
    (answerWrite a d r v s).2.cmdWord = s.cmdWord := by cases a <;> rfl
@[simp] theorem answerWrite_cmdCfg (a : Answer) (d : DeviceAddress) (r : RegNum) (v : Byte) (s : State) :
    (answerWrite a d r v s).2.cmdCfg = s.cmdCfg := by cases a <;> rfl
@[simp] theorem answerWrite_resetIn (a : Answer) (d : DeviceAddress) (r : RegNum) (v : Byte) (s : State) :
    (answerWrite a d r v s).2.resetIn = s.resetIn := by cases a <;> rfl
@[simp] theorem answerWrite_phase (a : Answer) (d : DeviceAddress) (r : RegNum) (v : Byte) (s : State) :
    (answerWrite a d r v s).2.phase = s.phase := by cases a <;> rfl
@[simp] theorem answerWrite_latch (a : Answer) (d : DeviceAddress) (r : RegNum) (v : Byte) (s : State) :
    (answerWrite a d r v s).2.latch = s.latch := by cases a <;> rfl
@[simp] theorem answerWrite_tx (a : Answer) (d : DeviceAddress) (r : RegNum) (v : Byte) (s : State) :
    (answerWrite a d r v s).2.tx = s.tx := by cases a <;> rfl
@[simp] theorem answerWrite_rx (a : Answer) (d : DeviceAddress) (r : RegNum) (v : Byte) (s : State) :
    (answerWrite a d r v s).2.rx = s.rx := by cases a <;> rfl
@[simp] theorem answerWrite_accOk (a : Answer) (d : DeviceAddress) (r : RegNum) (v : Byte) (s : State) :
    (answerWrite a d r v s).2.accOk = s.accOk := by cases a <;> rfl
@[simp] theorem answerWrite_resp (a : Answer) (d : DeviceAddress) (r : RegNum) (v : Byte) (s : State) :
    (answerWrite a d r v s).2.resp = s.resp := by cases a <;> rfl
@[simp] theorem answerWrite_xrsp (a : Answer) (d : DeviceAddress) (r : RegNum) (v : Byte) (s : State) :
    (answerWrite a d r v s).2.xrsp = s.xrsp := by cases a <;> rfl
@[simp] theorem answerWrite_devState (a : Answer) (d : DeviceAddress) (r : RegNum) (v : Byte) (s : State) :
    (answerWrite a d r v s).2.devState = s.devState := by cases a <;> rfl
@[simp] theorem answerWrite_contractViolated (a : Answer) (d : DeviceAddress) (r : RegNum) (v : Byte) (s : State) :
    (answerWrite a d r v s).2.contractViolated = s.contractViolated := by cases a <;> rfl
@[simp] theorem answerWrite_everAccepted (a : Answer) (d : DeviceAddress) (r : RegNum) (v : Byte) (s : State) :
    (answerWrite a d r v s).2.everAccepted = s.everAccepted := by cases a <;> rfl
@[simp] theorem answerWrite_env (a : Answer) (d : DeviceAddress) (r : RegNum) (v : Byte) (s : State) :
    (answerWrite a d r v s).2.env = s.env := by cases a <;> rfl

/-! ## answerRead (R52, R64): the expander's registers and the free values drawn are all it changes -/

@[simp] theorem answerRead_cmdValid (a : Answer) (d : DeviceAddress) (r : RegNum) (s : State) :
    (answerRead a d r s).2.cmdValid = s.cmdValid := by cases a <;> rfl
@[simp] theorem answerRead_cmdWord (a : Answer) (d : DeviceAddress) (r : RegNum) (s : State) :
    (answerRead a d r s).2.cmdWord = s.cmdWord := by cases a <;> rfl
@[simp] theorem answerRead_cmdCfg (a : Answer) (d : DeviceAddress) (r : RegNum) (s : State) :
    (answerRead a d r s).2.cmdCfg = s.cmdCfg := by cases a <;> rfl
@[simp] theorem answerRead_resetIn (a : Answer) (d : DeviceAddress) (r : RegNum) (s : State) :
    (answerRead a d r s).2.resetIn = s.resetIn := by cases a <;> rfl
@[simp] theorem answerRead_phase (a : Answer) (d : DeviceAddress) (r : RegNum) (s : State) :
    (answerRead a d r s).2.phase = s.phase := by cases a <;> rfl
@[simp] theorem answerRead_latch (a : Answer) (d : DeviceAddress) (r : RegNum) (s : State) :
    (answerRead a d r s).2.latch = s.latch := by cases a <;> rfl
@[simp] theorem answerRead_tx (a : Answer) (d : DeviceAddress) (r : RegNum) (s : State) :
    (answerRead a d r s).2.tx = s.tx := by cases a <;> rfl
@[simp] theorem answerRead_rx (a : Answer) (d : DeviceAddress) (r : RegNum) (s : State) :
    (answerRead a d r s).2.rx = s.rx := by cases a <;> rfl
@[simp] theorem answerRead_accOk (a : Answer) (d : DeviceAddress) (r : RegNum) (s : State) :
    (answerRead a d r s).2.accOk = s.accOk := by cases a <;> rfl
@[simp] theorem answerRead_resp (a : Answer) (d : DeviceAddress) (r : RegNum) (s : State) :
    (answerRead a d r s).2.resp = s.resp := by cases a <;> rfl
@[simp] theorem answerRead_xrsp (a : Answer) (d : DeviceAddress) (r : RegNum) (s : State) :
    (answerRead a d r s).2.xrsp = s.xrsp := by cases a <;> rfl
@[simp] theorem answerRead_devState (a : Answer) (d : DeviceAddress) (r : RegNum) (s : State) :
    (answerRead a d r s).2.devState = s.devState := by cases a <;> rfl
@[simp] theorem answerRead_contractViolated (a : Answer) (d : DeviceAddress) (r : RegNum) (s : State) :
    (answerRead a d r s).2.contractViolated = s.contractViolated := by cases a <;> rfl
@[simp] theorem answerRead_everAccepted (a : Answer) (d : DeviceAddress) (r : RegNum) (s : State) :
    (answerRead a d r s).2.everAccepted = s.everAccepted := by cases a <;> rfl
@[simp] theorem answerRead_env (a : Answer) (d : DeviceAddress) (r : RegNum) (s : State) :
    (answerRead a d r s).2.env = s.env := by cases a <;> rfl

/-! ## takeTurn (log 1) -/

@[simp] theorem takeTurn_cmdValid (s : State) : (takeTurn s).cmdValid = s.cmdValid := rfl
@[simp] theorem takeTurn_cmdWord (s : State) : (takeTurn s).cmdWord = s.cmdWord := rfl
@[simp] theorem takeTurn_cmdCfg (s : State) : (takeTurn s).cmdCfg = s.cmdCfg := rfl
@[simp] theorem takeTurn_resetIn (s : State) : (takeTurn s).resetIn = s.resetIn := rfl
@[simp] theorem takeTurn_phase (s : State) : (takeTurn s).phase = s.phase := rfl
@[simp] theorem takeTurn_latch (s : State) : (takeTurn s).latch = s.latch := rfl
@[simp] theorem takeTurn_tx (s : State) : (takeTurn s).tx = s.tx := rfl
@[simp] theorem takeTurn_rx (s : State) : (takeTurn s).rx = s.rx := rfl
@[simp] theorem takeTurn_accOk (s : State) : (takeTurn s).accOk = s.accOk := rfl
@[simp] theorem takeTurn_resp (s : State) : (takeTurn s).resp = s.resp := rfl
@[simp] theorem takeTurn_xrsp (s : State) : (takeTurn s).xrsp = s.xrsp := rfl
@[simp] theorem takeTurn_mem (s : State) : (takeTurn s).mem = s.mem := rfl
@[simp] theorem takeTurn_devState (s : State) : (takeTurn s).devState = s.devState := rfl
@[simp] theorem takeTurn_contractViolated (s : State) : (takeTurn s).contractViolated = s.contractViolated := rfl
@[simp] theorem takeTurn_everAccepted (s : State) : (takeTurn s).everAccepted = s.everAccepted := rfl
@[simp] theorem takeTurn_env (s : State) : (takeTurn s).env = s.env.tail := rfl
@[simp] theorem takeTurn_freeCount (s : State) : (takeTurn s).freeCount = s.freeCount := rfl

/-! ## answerRequest (R29) -/

@[simp] theorem answerRequest_cmdValid (a : Answer) (s : State) : (answerRequest a s).cmdValid = s.cmdValid := by
  unfold answerRequest; split <;> rfl
@[simp] theorem answerRequest_cmdWord (a : Answer) (s : State) : (answerRequest a s).cmdWord = s.cmdWord := by
  unfold answerRequest; split <;> rfl
@[simp] theorem answerRequest_cmdCfg (a : Answer) (s : State) : (answerRequest a s).cmdCfg = s.cmdCfg := by
  unfold answerRequest; split <;> rfl
@[simp] theorem answerRequest_resetIn (a : Answer) (s : State) : (answerRequest a s).resetIn = s.resetIn := by
  unfold answerRequest; split <;> rfl
@[simp] theorem answerRequest_phase (a : Answer) (s : State) : (answerRequest a s).phase = s.phase := by
  unfold answerRequest; split <;> rfl
@[simp] theorem answerRequest_latch (a : Answer) (s : State) : (answerRequest a s).latch = s.latch := by
  unfold answerRequest; split <;> rfl
@[simp] theorem answerRequest_tx (a : Answer) (s : State) : (answerRequest a s).tx = s.tx := by
  unfold answerRequest; split <;> rfl
@[simp] theorem answerRequest_rx (a : Answer) (s : State) : (answerRequest a s).rx = s.rx := by
  unfold answerRequest; split <;> rfl
@[simp] theorem answerRequest_accOk (a : Answer) (s : State) : (answerRequest a s).accOk = s.accOk := by
  unfold answerRequest; split <;> rfl
@[simp] theorem answerRequest_resp (a : Answer) (s : State) : (answerRequest a s).resp = s.resp := by
  unfold answerRequest; split <;> rfl
@[simp] theorem answerRequest_mem (a : Answer) (s : State) : (answerRequest a s).mem = s.mem := by
  unfold answerRequest; split <;> rfl
@[simp] theorem answerRequest_devState (a : Answer) (s : State) : (answerRequest a s).devState = s.devState := by
  unfold answerRequest; split <;> rfl
@[simp] theorem answerRequest_contractViolated (a : Answer) (s : State) :
    (answerRequest a s).contractViolated = s.contractViolated := by
  unfold answerRequest; split <;> rfl
@[simp] theorem answerRequest_everAccepted (a : Answer) (s : State) : (answerRequest a s).everAccepted = s.everAccepted := by
  unfold answerRequest; split <;> rfl
@[simp] theorem answerRequest_env (a : Answer) (s : State) : (answerRequest a s).env = s.env := by
  unfold answerRequest; split <;> rfl
@[simp] theorem answerRequest_freeCount (a : Answer) (s : State) : (answerRequest a s).freeCount = s.freeCount := by
  unfold answerRequest; split <;> rfl

theorem answerRequest_outstanding {s : State} (hp : s.phase ≠ .idle) (hx : s.xrsp = none) (a : Answer) :
    answerRequest a s = { s with xrsp := some a } := by
  unfold answerRequest; split <;> simp_all

theorem answerRequest_ignored {s : State} (h : s.phase = .idle ∨ s.xrsp ≠ none) (a : Answer) : answerRequest a s = s := by
  unfold answerRequest; split <;> simp_all

/-! ## envStep: the engine's registers, the expanders and the ghost state are no agent's to move but the engine's (R14) -/

@[simp] theorem envStep_phase (s : State) : (envStep s).phase = s.phase := by
  unfold envStep; split
  · rfl
  · rename_i m ms _; cases m <;> simp [applyMove]
@[simp] theorem envStep_latch (s : State) : (envStep s).latch = s.latch := by
  unfold envStep; split
  · rfl
  · rename_i m ms _; cases m <;> simp [applyMove]
@[simp] theorem envStep_tx (s : State) : (envStep s).tx = s.tx := by
  unfold envStep; split
  · rfl
  · rename_i m ms _; cases m <;> simp [applyMove]
@[simp] theorem envStep_rx (s : State) : (envStep s).rx = s.rx := by
  unfold envStep; split
  · rfl
  · rename_i m ms _; cases m <;> simp [applyMove]
@[simp] theorem envStep_accOk (s : State) : (envStep s).accOk = s.accOk := by
  unfold envStep; split
  · rfl
  · rename_i m ms _; cases m <;> simp [applyMove]
@[simp] theorem envStep_resp (s : State) : (envStep s).resp = s.resp := by
  unfold envStep; split
  · rfl
  · rename_i m ms _; cases m <;> simp [applyMove]
@[simp] theorem envStep_mem (s : State) : (envStep s).mem = s.mem := by
  unfold envStep; split
  · rfl
  · rename_i m ms _; cases m <;> simp [applyMove]
@[simp] theorem envStep_devState (s : State) : (envStep s).devState = s.devState := by
  unfold envStep; split
  · rfl
  · rename_i m ms _; cases m <;> simp [applyMove]
@[simp] theorem envStep_contractViolated (s : State) : (envStep s).contractViolated = s.contractViolated := by
  unfold envStep; split
  · rfl
  · rename_i m ms _; cases m <;> simp [applyMove]
@[simp] theorem envStep_everAccepted (s : State) : (envStep s).everAccepted = s.everAccepted := by
  unfold envStep; split
  · rfl
  · rename_i m ms _; cases m <;> simp [applyMove]
@[simp] theorem envStep_env (s : State) : (envStep s).env = s.env.tail := by
  unfold envStep; split
  · simp_all
  · rename_i m ms _; cases m <;> simp_all [applyMove]
@[simp] theorem envStep_freeCount (s : State) : (envStep s).freeCount = s.freeCount := by
  unfold envStep; split
  · rfl
  · rename_i m ms _; cases m <;> simp [applyMove]

end Sys2Proof.Machine
end

