-- ==== Sys2Proof/Laws/Ops.lean ====
section
/-! SUPPORT. What each shared operation can do, said once: the equations of a completion phase by phase, the outcomes of a
presented command, of an exchange and of a step. -/

namespace Sys2Proof.Machine

/-! ## Accept -/

@[simp] theorem whenReady_idle {s : State} (h : s.phase = .idle) (t : State) : whenReady t s = .next t := by
  simp [whenReady, h]

@[simp] theorem whenReady_busy {s : State} (h : s.phase ≠ .idle) (t : State) : whenReady t s = .next s := by
  unfold whenReady
  split
  · contradiction
  · rfl

/-- A presented command is accepted, or stays presented. -/
theorem whenReady_cases {s t u : State} (h : whenReady t s = .next u) :
    (s.phase = .idle ∧ u = t) ∨ (s.phase ≠ .idle ∧ u = s) := by
  by_cases hp : s.phase = .idle
  · rw [whenReady_idle hp] at h
    exact .inl ⟨hp, (Host.Outcome.next.inj h).symm⟩
  · rw [whenReady_busy hp] at h
    exact .inr ⟨hp, (Host.Outcome.next.inj h).symm⟩

/-! ## Complete -/

theorem complete_idle {s : State} (h : s.phase = .idle) (c : Completion) : complete c s = receive c s := by
  simp [complete, advance, h]

theorem complete_initW {s : State} {k : Fin 9} (h : s.phase = .initW k) (c : Completion) :
    complete c s = enter (afterInitWrite k) (receive c s) := by
  simp [complete, advance, h]

theorem complete_initRb {s : State} (h : s.phase = .initRb) (c : Completion) :
    complete c s = finish (verifiedFlag c.rx.b2 s.latch.rc.configuration) c.rx.b2
      (markDevice s.latch.addr (verifiedFlag c.rx.b2 s.latch.rc.configuration) (receive c s)) := by
  simp [complete, advance, h, decodeReadResponse]

theorem complete_wrW {s : State} (h : s.phase = .wrW) (c : Completion) :
    complete c s = enter .wrRb (receive c s) := by
  simp [complete, advance, h]

theorem complete_wrRb {s : State} (h : s.phase = .wrRb) (c : Completion) :
    complete c s = finish (verifiedFlag c.rx.b2 s.latch.val) c.rx.b2 (receive c s) := by
  simp [complete, advance, h, decodeReadResponse]

theorem complete_rd {s : State} (h : s.phase = .rd) (c : Completion) :
    complete c s = finish false c.rx.b2 (receive c s) := by
  simp [complete, advance, h, decodeReadResponse]

/-! ## Exchange -/

theorem exchange_idle {s : State} (h : s.phase = .idle) (f : Answer → State → Completion × State) :
    exchange f s = .next { s with xrsp := none } := by
  simp [exchange, h]

theorem exchange_waiting {s : State} (h : s.phase ≠ .idle) (hx : s.xrsp = none)
    (f : Answer → State → Completion × State) : exchange f s = .next s := by
  unfold exchange
  split
  · contradiction
  · rfl
  · simp_all

theorem exchange_answered {s : State} (h : s.phase ≠ .idle) {a : Answer} (hx : s.xrsp = some a)
    (f : Answer → State → Completion × State) : exchange f s = .next (complete (f a s).1 (f a s).2) := by
  unfold exchange
  split
  · contradiction
  · simp_all
  · simp_all

/-! ## The turn and the step -/

theorem engineNext_iff {s : State} : engineNext s = true ↔ s.resetIn = false ∧ envNext s = false := by
  simp [engineNext]

/-- On the engine's turn with no step enabled, the turn passes. -/
theorem envStep_of_engine {s : State} (h : envNext s = false) : envStep s = takeTurn s := by
  unfold envNext at h
  unfold envStep takeTurn
  split at h <;> simp_all [applyMove]
  cases s
  simp_all

/-- Everything a step can do. -/
theorem step_cases {s t : State} (h : step s = .next t) :
    (s.resetIn = true ∧ t = resetEngine s) ∨
    (s.resetIn = false ∧ envNext s = true ∧ t = envStep s) ∨
    (engineNext s = true ∧ s.phase = .idle ∧ s.cmdValid = true ∧
      ((∃ i, decodeCmd s.cmdWord = .ok i ∧ exec i (takeTurn s) = .next t) ∨
        (∃ e, decodeCmd s.cmdWord = .error e ∧ t = raiseIllegal (takeTurn s)))) ∨
    (engineNext s = true ∧ ((s.phase = .idle ∧ s.cmdValid = false) ∨ (s.phase ≠ .idle ∧ s.xrsp = none)) ∧
      t = takeTurn s) ∨
    (engineNext s = true ∧ s.phase ≠ .idle ∧
      ∃ a i, s.xrsp = some a ∧ decodeFrame s.tx = .ok i ∧ exec i (takeTurn s) = .next t) := by
  unfold step turn at h
  by_cases hr : s.resetIn = true
  · simp only [hr, if_true] at h
    exact .inl ⟨hr, (Host.Outcome.next.inj h).symm⟩
  have hr' : s.resetIn = false := by simpa using hr
  by_cases he : envNext s = true
  · simp only [hr', he, Bool.false_eq_true, if_false, if_true] at h
    exact .inr (.inl ⟨hr', he, (Host.Outcome.next.inj h).symm⟩)
  have he' : envNext s = false := by simpa using he
  have hn : engineNext s = true := engineNext_iff.2 ⟨hr', he'⟩
  have hpass : envStep s = takeTurn s := envStep_of_engine he'
  simp only [hr', he', Bool.false_eq_true, if_false] at h
  by_cases hp : s.phase = .idle
  · simp only [hp] at h
    by_cases hv : s.cmdValid = true
    · refine .inr (.inr (.inl ⟨hn, hp, hv, ?_⟩))
      simp only [hv, if_true, turnOfCommand] at h
      cases hd : decodeCmd s.cmdWord with
      | ok i => exact .inl ⟨i, rfl, by simpa [hd] using h⟩
      | error e => exact .inr ⟨e, rfl, by simpa [hd] using h.symm⟩
    · have hv' : s.cmdValid = false := by simpa using hv
      simp only [hv', Bool.false_eq_true, if_false] at h
      exact .inr (.inr (.inr (.inl ⟨hn, .inl ⟨hp, hv'⟩, (Host.Outcome.next.inj h).symm.trans hpass⟩)))
  · cases hx : s.xrsp with
    | none =>
      refine .inr (.inr (.inr (.inl ⟨hn, .inr ⟨hp, rfl⟩, ?_⟩)))
      cases hq : s.phase <;> simp_all
    | some a =>
      refine .inr (.inr (.inr (.inr ⟨hn, hp, a, ?_⟩)))
      cases hd : decodeFrame s.tx with
      | ok i => refine ⟨i, rfl, rfl, ?_⟩; cases hq : s.phase <;> simp_all [turnOfFrame]
      | error e => cases hq : s.phase <;> simp_all [turnOfFrame]

end Sys2Proof.Machine
end

