-- ==== Sys2Proof/Laws/PerInstr.lean ====
section
/-! SUPPORT. Statements about every instruction as syntax, one lemma per constructor. The family TableMatch: what the encoder
gives lies in the row's match and mask of spec/opcode_table.json. -/

namespace Sys2Proof.Laws.TableMatch

/-- A code word as the number of the opcode table, at 24 bits. -/
def codeBits : CodeWord → BitVec 24
  | .cmd w => w.setWidth 24
  | .wire f => (f.b0.setWidth 24 <<< 16) ||| (f.b1.setWidth 24 <<< 8) ||| f.b2.setWidth 24

/-- The "match" of an instruction's row. -/
def rowMatch : Instr → BitVec 24
  | .init => 0x1000#24
  | .regrd _ => 0x2000#24
  | .regwr _ _ => 0x3000#24
  | .portrd => 0x4000#24
  | .portwr _ => 0x5000#24
  | .frameWrite _ _ _ => 0x400000#24
  | .frameRead _ _ => 0x410000#24

/-- The "mask" of an instruction's row. -/
def rowMask : Instr → BitVec 24
  | .init => 0xFFFF#24
  | .regrd _ => 0xF0FF#24
  | .regwr _ _ => 0xF000#24
  | .portrd => 0xFFFF#24
  | .portwr _ => 0xFF00#24
  | .frameWrite _ _ _ => 0xF9F000#24
  | .frameRead _ _ => 0xF9F0FF#24

/-- The encoding of an instruction agrees with its row on the bits the row fixes. -/
def Statement (i : Instr) : Prop := codeBits (encode i) &&& rowMask i = rowMatch i

theorem init : Statement .init := by unfold Statement; decide

theorem regrd (reg : RegNum) : Statement (.regrd reg) := by
  revert reg
  unfold Statement
  decide

theorem regwr (reg : RegNum) (value : Byte) : Statement (.regwr reg value) := by
  unfold Statement
  apply BitVec.eq_of_getLsbD_eq
  intro i hi
  interval_cases i <;> simp [codeBits, encode, cmdOf, rowMask, rowMatch]

theorem portrd : Statement .portrd := by unfold Statement; decide

theorem portwr (value : Byte) : Statement (.portwr value) := by
  unfold Statement
  apply BitVec.eq_of_getLsbD_eq
  intro i hi
  interval_cases i <;> simp [codeBits, encode, cmdOf, rowMask, rowMatch]

theorem frameWrite (address : DeviceAddress) (reg : RegNum) (value : Byte) : Statement (.frameWrite address reg value) := by
  unfold Statement
  apply BitVec.eq_of_getLsbD_eq
  intro i hi
  interval_cases i <;>
    simp [codeBits, encode, encodeWrite, Config.writeControlBase, Config.writeBit, rowMask, rowMatch]

theorem frameRead (address : DeviceAddress) (reg : RegNum) : Statement (.frameRead address reg) := by
  unfold Statement
  apply BitVec.eq_of_getLsbD_eq
  intro i hi
  interval_cases i <;>
    simp [codeBits, encode, encodeRead, Config.readControlBase, Config.readBit, Config.readPlaceholder, rowMask, rowMatch]

end Sys2Proof.Laws.TableMatch
end

