-- ==== Sys2Proof/Tests/Slice0.lean ====
section
/-! SUPPORT. Tests on fixed values, their expected results from 95_test_vectors.md and the encoding tables of 30_encoding.md; the
smoke tests of WellFormed; and for each statement with hypotheses a witness: a state and operands that meet them all. -/

namespace Sys2Proof.Tests

open Sys2Proof Sys2Proof.Machine

/-! ## Helpers -/

/-- The RegisterConfig of V-I2: nine distinct bytes. -/
def rcTest : RegisterConfig :=
  { direction := 0x11, polarity := 0x22, interruptEnable := 0x33, defaultCompare := 0x44, interruptControl := 0x55,
    configuration := 0x66, pullUp := 0x77, port := 0x88, outputLatch := 0x99 }

/-- A host that presents `w` for device `a` to the engine after reset. -/
def presented (w : CmdWord) (a : DeviceAddress) : State :=
  { State.reset with cmdValid := true, cmdWord := w, cmdCfg := { address := a, rc := rcTest } }

/-- The same host with moves to come. -/
def presentedThen (w : CmdWord) (e : List EnvMove) : State := { presented w 3 with env := e }

/-- Latches of a command in progress for device 3: register `r`, value `v`. -/
def latchTest (op : BitVec 4) (r : RegNum) (v : Byte) : Latches :=
  { op := op, reg := r, val := v, addr := 3, rc := rcTest }

/-- A command in progress with its frame outstanding. -/
def busy (p : Phase) (l : Latches) (x : Option Answer) : State :=
  { State.reset with
    phase := p, latch := l, tx := (frameFor p l).getD Frame.zero, xrsp := x, contractViolated := true, everAccepted := true }

/-- A read of register 9 of device 3 in progress. -/
def reading (x : Option Answer) : State := busy .rd (latchTest 0x2 0x9 0x00) x

/-- The write half of `REGWR 0xA, 0x5A` for device 3 in progress. -/
def writing (x : Option Answer) : State := busy .wrW (latchTest 0x3 0xA 0x5A) x

/-- Its read-back half. -/
def readingBack (x : Option Answer) : State := busy .wrRb (latchTest 0x3 0xA 0x5A) x

/-- The k-th write of INIT for device 3 in progress. -/
def configuring (k : Fin 9) (x : Option Answer) : State := busy (.initW k) (latchTest 0x1 0x0 0x00) x

/-- INIT's read-back in progress. -/
def configured (x : Option Answer) : State := busy .initRb (latchTest 0x1 0x0 0x00) x

/-- A transport that reports `fail` and leaves byte 2 as given. -/
def reply (fail : Bool) (b : Byte) : Completion := { fail := fail, rx := { b0 := 0xFF, b1 := 0xFF, b2 := b }, len := 3 }

/-- A general answer without changes in the expanders. -/
def plain (fail : Bool) (b : Byte) : Answer := .general (reply fail b) []

/-- The engine's accept, and the exchanges with these answers. -/
def exchanges (answers : List Answer) : List EnvMove := .letEngine :: answers.flatMap exchangeMoves

/-- What holds of the next state, if there is one. -/
def got {α : Type} (o : Host.Outcome State Fault Refusal) (f : State → α) : Option α :=
  match o with
  | .next s => some (f s)
  | .fault _ => none
  | .refused _ => none

/-! ## WellFormed: an ill-formed term for each check, which the check refuses (R67, U14) -/

theorem test_wellFormed_refuses :
    (Instr.regrd 0xB).wellFormed = false ∧ (Instr.regwr 0xB 0x00).wellFormed = false ∧
    (Instr.frameWrite 0 0xB 0x00).wellFormed = false ∧ (Instr.frameRead 3 0xF).wellFormed = false := by decide

theorem test_wellFormed_accepts :
    (Instr.regrd 0xA).wellFormed = true ∧ (Instr.regwr 0xA 0xFF).wellFormed = true ∧
    (Instr.frameWrite 3 0xA 0xFF).wellFormed = true ∧ (Instr.frameRead 0 0x0).wellFormed = true := by decide

/-! ## Decoding: words written bit by bit from 30_encoding.md -/

/-- R66, R69: op[15:12] reg[11:8] data[7:0]. -/
theorem test_decode_commands :
    decodeCmd 0b0001_0000_00000000#16 = .ok .init ∧
    decodeCmd 0b0010_1010_00000000#16 = .ok (.regrd 0xA) ∧
    decodeCmd 0b0011_0001_01010101#16 = .ok (.regwr 0x1 0x55) ∧
    decodeCmd 0b0100_0000_00000000#16 = .ok .portrd ∧
    decodeCmd 0b0101_0000_11111111#16 = .ok (.portwr 0xFF) := by decide

/-- R72, R73: pattern 01000, address in bits 2:1, read/write in bit 0. -/
theorem test_decode_frames :
    decodeFrame { b0 := 0b01000_11_0#8, b1 := 0b00001010#8, b2 := 0b11111111#8 } = .ok (.frameWrite 3 0xA 0xFF) ∧
    decodeFrame { b0 := 0b01000_01_0#8, b1 := 0b00001001#8, b2 := 0b00000001#8 } = .ok (.frameWrite 1 0x9 0x01) ∧
    decodeFrame { b0 := 0b01000_10_1#8, b1 := 0b00001001#8, b2 := 0b00000000#8 } = .ok (.frameRead 2 0x9) := by decide

/-- 95 §2.3, the illegal rows. -/
theorem test_decode_illegal :
    decodeCmd 0x0000 = .error .illegalOpcode ∧ decodeCmd 0x6000 = .error .illegalOpcode ∧
    decodeCmd 0xFFFF = .error .illegalOpcode ∧ decodeCmd 0x1001 = .error .reservedField ∧
    decodeCmd 0x1100 = .error .reservedField ∧ decodeCmd 0x2B00 = .error .illegalRegister ∧
    decodeCmd 0x2F00 = .error .illegalRegister ∧ decodeCmd 0x2001 = .error .reservedField ∧
    decodeCmd 0x3BFF = .error .illegalRegister ∧ decodeCmd 0x4001 = .error .reservedField ∧
    decodeCmd 0x4900 = .error .reservedField ∧ decodeCmd 0x51AA = .error .reservedField := by decide

/-- U11, R84: frames the engine never sends. -/
theorem test_decode_stray_frames :
    decodeFrame { b0 := 0x48, b1 := 0x00, b2 := 0x00 } = .error .framePattern ∧
    decodeFrame { b0 := 0x40, b1 := 0x0B, b2 := 0x00 } = .error .frameRegister ∧
    decodeFrame { b0 := 0x40, b1 := 0x10, b2 := 0x00 } = .error .frameRegister ∧
    decodeFrame { b0 := 0x41, b1 := 0x00, b2 := 0x01 } = .error .framePlaceholder := by decide

/-- V-E1 to V-E4. -/
theorem test_encode_frames :
    encodeWrite 0 0x5 0x28 = { b0 := 0x40, b1 := 0x05, b2 := 0x28 } ∧
    encodeWrite 3 0xA 0xFF = { b0 := 0x46, b1 := 0x0A, b2 := 0xFF } ∧
    encodeWrite 2 0x7 0x80 = { b0 := 0x44, b1 := 0x07, b2 := 0x80 } ∧
    encodeRead 0 0x9 = { b0 := 0x41, b1 := 0x09, b2 := 0x00 } ∧
    encodeRead 3 0xA = { b0 := 0x47, b1 := 0x0A, b2 := 0x00 } := by decide

/-- The opcode table's numbering: a row's `match` number decodes to the row's instruction. -/
theorem test_table_words :
    decodeTableWord 16 0x1000 = some .init ∧ decodeTableWord 16 0x2000 = some (.regrd 0) ∧
    decodeTableWord 16 0x3000 = some (.regwr 0 0) ∧ decodeTableWord 16 0x4000 = some .portrd ∧
    decodeTableWord 16 0x5000 = some (.portwr 0) ∧ decodeTableWord 24 0x400000 = some (.frameWrite 0 0 0) ∧
    decodeTableWord 24 0x410000 = some (.frameRead 0 0) ∧ decodeTableWord 16 0x11000 = none ∧
    decodeTableWord 8 0x10 = none := by decide

/-- 95 §2.2. -/
theorem test_portValue :
    portBit 0xAA 0 = some false ∧ portBit 0xAA 7 = some true ∧ portBit 0x01 0 = some true ∧ portBit 0x01 8 = none ∧
    portSetBit 0x00 7 true = some 0x80 ∧ portSetBit 0xFF 0 false = some 0xFE ∧ portSetBit 0x5A 3 true = some 0x5A ∧
    portSetBit 0x0F 7 true = some 0x8F ∧ portToByte (portFromByte 0x3C) = 0x3C ∧
    decodeReadResponse { b0 := 0xFF, b1 := 0xFF, b2 := 0xAA } = 0xAA := by decide

/-! ## One step of each instruction -/

/-- V-I2, the first frame. -/
theorem test_init_accept :
    got (step (presented 0x1000 3)) (fun t => (t.phase, t.tx, t.resp.valid)) =
      some (.initW 0, { b0 := 0x46, b1 := 0x05, b2 := 0x66 }, false) := by decide

/-- V-R4: the frame of REGRD OUTPUT_LATCH for device 2; the device is Uninitialized, so the mark is set (R39). -/
theorem test_regrd_accept :
    got (step (presented 0x2A00 2)) (fun t => (t.phase, t.tx, t.contractViolated)) =
      some (.rd, { b0 := 0x45, b1 := 0x0A, b2 := 0x00 }, true) := by decide

/-- V-R14: a register field above 0xA is rejected, with no frame. -/
theorem test_regwr_unnamed :
    got (step (presented 0x3B00 0)) (fun t => (t.phase, t.resp)) =
      some (.idle, { valid := true, verified := false, byte := 0x00, xferOk := false, illegal := true }) := by decide

/-- V-R10: a read-only register is written all the same. -/
theorem test_regwr_accept :
    got (step (presented 0x3712 0)) (fun t => (t.phase, t.tx)) =
      some (.wrW, { b0 := 0x40, b1 := 0x07, b2 := 0x12 }) := by decide

/-- V-R12: the frame of PORTRD for device 3. -/
theorem test_portrd_accept :
    got (step (presented 0x4000 3)) (fun t => (t.phase, t.tx)) =
      some (.rd, { b0 := 0x47, b1 := 0x09, b2 := 0x00 }) := by decide

/-- V-R13: the first frame of PORTWR 0xAA. -/
theorem test_portwr_accept :
    got (step (presented 0x50AA 0)) (fun t => (t.phase, t.tx)) =
      some (.wrW, { b0 := 0x40, b1 := 0x09, b2 := 0xAA }) := by decide

/-- V-R5, its first exchange: IdealDevice stores the byte and the read of the same register follows. -/
theorem test_frameWrite_ideal :
    got (step (writing (some .idealDevice))) (fun t => (t.phase, t.tx, t.mem)) =
      some (.wrRb, { b0 := 0x47, b1 := 0x0A, b2 := 0x00 }, [(58, 0x5A)]) := by decide

/-- V-R8: a failed write is still followed by the read, and `acc_ok` remembers it. -/
theorem test_frameWrite_failed :
    got (step (writing (some (plain true 0x00)))) (fun t => (t.phase, t.accOk, t.mem)) =
      some (.wrRb, false, []) := by decide

/-- V-R3: a failed read gives a byte that only `xfer_ok` marks as wrong. -/
theorem test_frameRead_failed :
    got (step (reading (some (plain true 0x5C)))) (fun t => (t.phase, t.resp)) =
      some (.idle, { valid := true, verified := false, byte := 0x5C, xferOk := false, illegal := false }) := by decide

/-- V-I2, its last exchange: verified, and device 3 Initialized. -/
theorem test_frameRead_init :
    got (step (configured (some (plain false 0x66)))) (fun t => (t.resp, devStateAt t 3, devStateAt t 2)) =
      some ({ valid := true, verified := true, byte := 0x66, xferOk := true, illegal := false }, .initialized,
        .uninitialized) := by decide

/-- Log 3: a table row placed as the next instruction is what the step runs. -/
theorem test_withFetchWord_command :
    got (step (State.reset.withFetchWord 16 0x3000)) (fun t => (t.phase, t.latch.op)) = some (.wrW, 0x3) := by decide

theorem test_withFetchWord_frame :
    got (step (State.reset.withFetchWord 24 0x400000)) (fun t => (t.phase, t.mem)) = some (.wrRb, [(0, 0x00)]) := by decide

/-- R160: reset in the middle of a command. -/
theorem test_reset_step :
    got (step { reading none with resetIn := true }) (fun t => (t.phase, t.resp.valid, t.contractViolated)) =
      some (.idle, false, true) := by decide

/-- R173: the host asserts reset while a command is presented to an IDLE engine, and while an answer is there. -/
theorem test_reset_any_time :
    got (runSteps 2 { presented 0x1000 3 with env := [.reset] }) (fun t => (t.phase, t.cmdValid, t.accOk)) =
      some (.idle, true, true) ∧
    got (runSteps 2 { reading (some (plain false 0x5C)) with env := [.reset] }) (fun t => (t.phase, t.resp.valid)) =
      some (.idle, false) := by decide

/-- R26: INIT leaves 0x00 in L.val. -/
theorem test_init_latches :
    got (step { presented 0x1000 3 with latch := latchTest 0x3 0xA 0x5A }) (fun t => t.latch) =
      some (latchTest 0x1 0xA 0x00) := by decide

/-- The canonical form: sorted by key, the later write wins. -/
theorem test_memory_form :
    devWrite (devWrite (devWrite [] 3 0xA 0x11) 0 0x5 0x22) 3 0xA 0x33 = [(5, 0x22), (58, 0x33)] := by decide

/-! ## The assembler (R79, R82) -/

/-- P1 of 95 §3, its second and third lines. -/
theorem test_assemble :
    assemble [.cfg [(.address, 3), (.port, 0x88)], .command (.portwr 0xAA), .blank, .word 0xFFFF] =
      some [(0x50AA, { address := 3, rc := { RegisterConfig.zero with port := 0x88 } }),
        (0xFFFF, { address := 3, rc := { RegisterConfig.zero with port := 0x88 } })] ∧
    assemble [.cfg [(.address, 4)]] = none ∧ assemble [.command (.regrd 0xB)] = none := by decide

theorem test_parse_command : parseLine "REGWR PULL_UP, 0b101 ; x".toList = some (.command (.regwr 0x6 0x05)) := by decide

theorem test_disassemble : disassemblyText 0x3AFF = "REGWR OUTPUT_LATCH, 0xFF".toList := by decide

/-! ## Witnesses: states and operands that meet the hypotheses of the statements -/

/-! ### Encodings -/

theorem witness_DecodeEncodeAgree : Instr.init.wellFormed = true ∧ (Instr.regwr 0xA 0xFF).wellFormed = true ∧
    (Instr.frameRead 3 0x0).wellFormed = true := by decide

theorem witness_DecodedInstructionReencodes : decode (.cmd 0x3AFF) = .ok (.regwr 0xA 0xFF) ∧
    decode (.wire { b0 := 0x47, b1 := 0x0A, b2 := 0x00 }) = .ok (.frameRead 3 0xA) := by decide

/-- A word on each side of the equivalence, and one for each cause at its boundary. -/
theorem witness_IllegalWordsAreExactlyThese :
    decodeCmd 0x2AFF = .error .reservedField ∧ decodeCmd 0x0FFF = .error .illegalOpcode ∧
    decodeCmd 0x6000 = .error .illegalOpcode ∧ decodeCmd 0x3B00 = .error .illegalRegister ∧
    decodeCmd 0x5100 = .error .reservedField ∧ decodeCmd 0x5000 = .ok (.portwr 0x00) := by decide

theorem witness_EncoderLaws : (0x0#4 : RegNum) ≤ 0xA#4 ∧ (0xA#4 : RegNum) ≤ 0xA#4 := by decide

theorem witness_EncoderInjective : encodeWrite 3 0xA 0xFF = encodeWrite 3 0xA 0xFF ∧ encodeRead 0 0x0 = encodeRead 0 0x0 := by
  decide

theorem witness_MonitorReadsEncodedFrames :
    (Frame.mk 0x38 0x00 0x00).b0.extractLsb' 3 5 ≠ 0b01000#5 ∧ (Frame.mk 0x48 0x00 0x00).b0.extractLsb' 3 5 ≠ 0b01000#5 := by
  decide

/-- The indexes at the boundary, and a line that is set. -/
theorem witness_PortValueView : 0 < 8 ∧ 7 < 8 ∧ 8 ≤ 8 ∧ portSetBit 0x00 7 true = some 0x80 := by decide

/-! ### Accepting a command -/

theorem witness_InitAccepted : (presented 0x1000 3).phase = .idle := by decide

theorem witness_RegrdAccepted : (presented 0x2A00 3).phase = .idle ∧ (0xA#4 : RegNum) ≤ 0xA#4 := by decide

theorem witness_RegwrAccepted : (presented 0x37FF 3).phase = .idle ∧ (0x7#4 : RegNum) ≤ 0xA#4 := by decide

theorem witness_PortrdAccepted : (presented 0x4000 0).phase = .idle := by decide

theorem witness_PortwrAccepted : (presented 0x50FF 0).phase = .idle := by decide

theorem witness_UnnamedRegisterRejected : (presented 0x2B00 0).phase = .idle ∧ (0xB#4 : RegNum) ≤ 0xB#4 ∧
    (0xB#4 : RegNum) ≤ 0xF#4 := by decide

theorem witness_IllegalCommandStep : engineNext (presented 0x1001 0) = true ∧ (presented 0x1001 0).phase = .idle ∧
    (presented 0x1001 0).cmdValid = true ∧ decodeCmd (presented 0x1001 0).cmdWord = .error .reservedField := by decide

theorem witness_BusyEngineHoldsCommand : isCommand .portrd = true ∧ (reading none).phase ≠ .idle := by decide

theorem witness_PortCommandsMatch_accept : (presented 0x2900 0).phase = .idle ∧
    (∃ t, exec (.regrd 0x9) (presented 0x2900 0) = .next t) ∧
    ∃ t, exec (.regwr 0x9 0xAA) (presented 0x39AA 0) = .next t := ⟨by decide, ⟨_, rfl⟩, ⟨_, rfl⟩⟩

theorem witness_PortCommandsMatch_step : (reading (some .idealDevice)).phase ≠ .idle ∧
    (reading (some .idealDevice)).resetIn = false ∧ ∃ t, step (reading (some .idealDevice)) = .next t :=
  ⟨by decide, by decide, ⟨_, rfl⟩⟩

/-! ### The exchanges -/

/-- The three phases of the write clauses, the INIT phases at both ends; and another location. -/
theorem witness_FrameWriteOnIdealDevice : (0xA#4 : RegNum) ≤ 0xA#4 ∧
    (writing (some .idealDevice)).xrsp = some .idealDevice ∧ (writing (some .idealDevice)).phase = .wrW ∧
    (configuring 0 (some .idealDevice)).xrsp = some .idealDevice ∧
    (configuring 0 (some .idealDevice)).phase = .initW 0 ∧ (configuring 7 (some .idealDevice)).phase = .initW 7 ∧
    (configuring 8 (some .idealDevice)).phase = .initW 8 ∧ ((2, 0xA) : DeviceAddress × RegNum) ≠ (3, 0xA) := by decide

theorem witness_FrameReadOnIdealDevice : (0x0#4 : RegNum) ≤ 0xA#4 ∧
    (reading (some .idealDevice)).xrsp = some .idealDevice ∧ (reading (some .idealDevice)).phase = .rd ∧
    (readingBack (some .idealDevice)).xrsp = some .idealDevice ∧ (readingBack (some .idealDevice)).phase = .wrRb ∧
    (configured (some .idealDevice)).xrsp = some .idealDevice ∧ (configured (some .idealDevice)).phase = .initRb := by decide

/-- A failed and a clean completion, each frame, and every phase with an exchange outstanding. -/
theorem witness_CompletionFollowsPhase :
    (∃ a reg v, Instr.frameWrite 3 0xA 0x5A = .frameWrite a reg v ∧ reg ≤ 0xA#4) ∧
    (∃ a reg, Instr.frameRead 3 0x0 = .frameRead a reg ∧ reg ≤ 0xA#4) ∧
    (writing (some (plain true 0x00))).phase = .wrW ∧
    (writing (some (plain true 0x00))).xrsp = some (.general (reply true 0x00) []) ∧
    (configuring 0 (some (plain false 0x66))).phase = .initW 0 ∧ (configuring 8 (some (plain true 0x66))).phase = .initW 8 ∧
    (reading (some (plain false 0x66))).phase = .rd ∧ (readingBack (some (plain false 0x66))).phase = .wrRb ∧
    (configured (some (plain false 0x66))).phase = .initRb :=
  ⟨⟨3, 0xA, 0x5A, rfl, by decide⟩, ⟨3, 0x0, rfl, by decide⟩, by decide⟩

theorem witness_FrameWithoutAnswerWaits : (0xA#4 : RegNum) ≤ 0xA#4 ∧ (writing none).phase ≠ .idle ∧
    (writing none).xrsp = none := by decide

theorem witness_FrameBeyondRegistersRefused : (0xB#4 : RegNum) ≤ 0xB#4 ∧ (0xB#4 : RegNum) ≤ 0xF#4 := by decide

/-- In IDLE, and with an answer already there. -/
theorem witness_LateAnswerIgnored :
    ({ presented 0x4000 3 with env := [.answer .idealDevice, .withdraw] } : State).resetIn = false ∧
    ({ presented 0x4000 3 with env := [.answer .idealDevice, .withdraw] } : State).phase = .idle ∧
    ({ presented 0x4000 3 with env := [.answer .idealDevice, .withdraw] } : State).env =
      .answer .idealDevice :: [.withdraw] ∧
    ({ reading (some (plain true 0x00)) with env := [.answer .idealDevice] } : State).resetIn = false ∧
    ({ reading (some (plain true 0x00)) with env := [.answer .idealDevice] } : State).xrsp ≠ none ∧
    ({ reading (some (plain true 0x00)) with env := [.answer .idealDevice] } : State).env = .answer .idealDevice :: [] ∧
    (0xA#4 : RegNum) ≤ 0xA#4 := by decide

/-! ### Frames -/

/-- INIT, and a command other than INIT. -/
theorem witness_CommandFrame : isCommand .init = true ∧ (∃ t, exec .init (presented 0x1000 3) = .next t) ∧
    isCommand (.regwr 0xA 0x5A) = true ∧ Instr.regwr 0xA 0x5A ≠ .init ∧ (Instr.regwr 0xA 0x5A).wellFormed = true ∧
    ∃ t, exec (.regwr 0xA 0x5A) (presented 0x3A5A 3) = .next t :=
  ⟨by decide, ⟨_, rfl⟩, by decide, by decide, by decide, ⟨_, rfl⟩⟩

theorem witness_ExchangeFrame_write : (writing (some .corruptingDevice)).xrsp = some .corruptingDevice ∧
    (writing (some .corruptingDevice)).phase ≠ .initRb ∧
    ((3, 0x9) : DeviceAddress × RegNum) ≠ (3, 0xA) ∧
    ∃ t, exec (.frameWrite 3 0xA 0x5A) (writing (some .corruptingDevice)) = .next t :=
  ⟨by decide, by decide, by decide, ⟨_, rfl⟩⟩

theorem witness_ExchangeFrame_read : (configured (some .idealDevice)).xrsp = some .idealDevice ∧
    (2 : DeviceAddress) ≠ (configured (some .idealDevice)).latch.addr ∧
    ∃ t, exec (.frameRead 3 0x5) (configured (some .idealDevice)) = .next t := ⟨by decide, by decide, ⟨_, rfl⟩⟩

/-! ### The step -/

/-- With no move to come, and with the engine's turn next. -/
theorem witness_StepRunsDecodedCommand : engineNext (presented 0x3AFF 3) = true ∧
    engineNext (presentedThen 0x3AFF [.letEngine, .reset]) = true ∧ (presented 0x3AFF 3).phase = .idle ∧
    (presented 0x3AFF 3).cmdValid = true ∧ decodeCmd (presented 0x3AFF 3).cmdWord = .ok (.regwr 0xA 0xFF) := by decide

theorem witness_StepRunsDecodedFrame : engineNext (writing (some .idealDevice)) = true ∧
    (writing (some .idealDevice)).phase ≠ .idle ∧ (writing (some .idealDevice)).xrsp = some .idealDevice ∧
    decodeFrame (writing (some .idealDevice)).tx = .ok (.frameWrite 3 0xA 0x5A) := by decide

theorem witness_ResetStep : ({ reading none with resetIn := true } : State).resetIn = true ∧
    (∃ t, step (writing (some .idealDevice)) = .next t ∧ t.phase ≠ (writing (some .idealDevice)).phase) ∧
    (writing (some .idealDevice)).phase ≠ .idle ∧ (writing (some .idealDevice)).resetIn = false :=
  ⟨by decide, ⟨_, rfl, by decide⟩, by decide, by decide⟩

/-- A write frame cut off under each kind of answer, a read frame cut off, and reset in IDLE. -/
theorem witness_ResetDuringExchange :
    ({ writing none with resetIn := true } : State).resetIn = true ∧
    ({ writing none with resetIn := true } : State).phase ≠ .idle ∧ (0xA#4 : RegNum) ≤ 0xA#4 ∧
    ({ writing none with resetIn := true } : State).tx = encodeWrite 3 0xA 0x5A ∧
    ({ writing none with resetIn := true } : State).xrsp = none ∧
    ({ writing (some .corruptingDevice) with resetIn := true } : State).tx = encodeWrite 3 0xA 0x5A ∧
    ({ writing (some .corruptingDevice) with resetIn := true } : State).xrsp = some .corruptingDevice ∧
    ({ writing (some (plain true 0x00)) with resetIn := true } : State).xrsp = some (.general (reply true 0x00) []) ∧
    ((3, 0x9) : DeviceAddress × RegNum) ≠ (3, 0xA) ∧
    ({ reading none with resetIn := true } : State).tx = encodeRead 3 0x9 ∧
    ({ reading (some (plain true 0x00)) with resetIn := true } : State).xrsp = some (.general (reply true 0x00) []) ∧
    ({ State.reset with resetIn := true } : State).phase = .idle := by decide

/-- No answer and the reference devices' answers are no general ones. -/
theorem witness_ResetDuringExchange_reference :
    (∀ c changes, ({ writing none with resetIn := true } : State).xrsp ≠ some (.general c changes)) ∧
    ∀ c changes, ({ writing (some .idealDevice) with resetIn := true } : State).xrsp ≠ some (.general c changes) :=
  ⟨fun _ _ h => (nomatch h), fun _ _ h => (nomatch h)⟩

theorem witness_NothingMovesWithoutInput : (reading none).resetIn = false ∧ (reading none).env = [] ∧
    (reading none).phase ≠ .idle ∧ (reading none).xrsp = none ∧ State.reset.resetIn = false ∧ State.reset.env = [] ∧
    State.reset.phase = .idle ∧ State.reset.cmdValid = false := by decide

/-- Each entry of `env` first; reset and withdrawal also while the engine has a step enabled. -/
theorem witness_EnvironmentDrivesItsPorts :
    ({ reading none with env := [.answer .idealDevice] } : State).resetIn = false ∧
    ({ reading none with env := [.answer .idealDevice] } : State).phase ≠ .idle ∧
    ({ reading none with env := [.answer .idealDevice] } : State).xrsp = none ∧
    ({ reading none with env := [.answer .idealDevice] } : State).env = .answer .idealDevice :: [] ∧
    (presentedThen 0x1000 [.reset]).resetIn = false ∧ (presentedThen 0x1000 [.reset]).cmdValid = true ∧
    (presentedThen 0x1000 [.reset]).env = .reset :: [] ∧
    ({ reading (some .idealDevice) with env := [.reset] } : State).env = .reset :: [] ∧
    (presentedThen 0x1000 [.withdraw]).env = .withdraw :: [] ∧
    (presentedThen 0x1000 [.present 0xFFFF { address := 3, rc := rcTest }]).env =
      .present 0xFFFF { address := 3, rc := rcTest } :: [] ∧
    ({ State.reset with env := [.letEngine] } : State).phase = .idle ∧
    ({ State.reset with env := [.letEngine] } : State).cmdValid = false ∧
    ({ State.reset with env := [.letEngine] } : State).env = .letEngine :: [] := by decide

/-! ### Invariants and whole-machine rules -/

/-- The invariant holds in a state with a write outstanding. -/
theorem writing_inv (x : Option Answer) : EngineInv (writing x) where
  memWf := by
    refine ⟨List.Pairwise.nil, ?_⟩
    intro c hc
    cases hc
  regNamed := rfl
  frame := fun f hf => (Option.some.inj hf)
  noStrayAnswer := fun h => nomatch h
  busyNotValid := fun _ => rfl
  rxClear := fun _ => rfl
  latch := .inl rfl
  illegalClean := fun h => nomatch h
  accepted := fun _ => rfl
  marked := fun _ _ => rfl

theorem witness_StepKeepsInvariant : EngineInv (writing (some .idealDevice)) ∧
    ∃ t, step (writing (some .idealDevice)) = .next t := ⟨writing_inv _, ⟨_, rfl⟩⟩

theorem witness_StepNeverStops : EngineInv (writing none) := writing_inv none

theorem witness_OnlyLegalFramesSent : EngineInv (writing none) ∧ (writing none).phase ≠ .idle :=
  ⟨writing_inv none, by decide⟩

/-- Every clause's case: reset, another's turn, idle, each command, an illegal word, waiting, and each phase completing. -/
theorem witness_PhaseTransitions :
    (∃ t, step { reading none with resetIn := true } = .next t) ∧
    (engineNext (presentedThen 0x1000 [.withdraw]) = false ∧ ∃ t, step (presentedThen 0x1000 [.withdraw]) = .next t) ∧
    (engineNext State.reset = true ∧ ∃ t, step State.reset = .next t) ∧
    (engineNext (presented 0x1000 3) = true ∧ ∃ t, step (presented 0x1000 3) = .next t) ∧
    (∃ t, step (presented 0x2A00 3) = .next t) ∧ (∃ t, step (presented 0x4000 3) = .next t) ∧
    (∃ t, step (presented 0x3AFF 3) = .next t) ∧ (∃ t, step (presented 0x50FF 3) = .next t) ∧
    (∃ t, step (presented 0x5100 3) = .next t) ∧ (engineNext (reading none) = true ∧ ∃ t, step (reading none) = .next t) :=
  ⟨⟨_, rfl⟩, ⟨by decide, ⟨_, rfl⟩⟩, ⟨by decide, ⟨_, rfl⟩⟩, ⟨by decide, ⟨_, rfl⟩⟩, ⟨_, rfl⟩, ⟨_, rfl⟩, ⟨_, rfl⟩, ⟨_, rfl⟩,
    ⟨_, rfl⟩, ⟨by decide, ⟨_, rfl⟩⟩⟩

theorem witness_PhaseTransitions_completions :
    (∃ t, step (configuring 0 (some .idealDevice)) = .next t) ∧ (∃ t, step (configuring 7 (some .idealDevice)) = .next t) ∧
    (∃ t, step (configuring 8 (some .idealDevice)) = .next t) ∧ (∃ t, step (configured (some .idealDevice)) = .next t) ∧
    (∃ t, step (writing (some .idealDevice)) = .next t) ∧ (∃ t, step (readingBack (some .idealDevice)) = .next t) ∧
    (∃ t, step (reading (some .idealDevice)) = .next t) ∧ (writing (some .idealDevice)).xrsp ≠ none ∧
    engineNext (writing (some .idealDevice)) = true :=
  ⟨⟨_, rfl⟩, ⟨_, rfl⟩, ⟨_, rfl⟩, ⟨_, rfl⟩, ⟨_, rfl⟩, ⟨_, rfl⟩, ⟨_, rfl⟩, by decide, by decide⟩

/-- Another's turn, idle with nothing presented, a legal command, an illegal one, a command that goes on, and one that ends. -/
theorem witness_ResponseHeld :
    (engineNext (presentedThen 0x1000 [.withdraw]) = false ∧ ∃ t, step (presentedThen 0x1000 [.withdraw]) = .next t) ∧
    (∃ t, step State.reset = .next t) ∧
    (engineNext (presented 0x4000 3) = true ∧ decodeCmd (presented 0x4000 3).cmdWord = .ok .portrd ∧
      ∃ t, step (presented 0x4000 3) = .next t) ∧
    (engineNext (presented 0x4900 3) = true ∧ decodeCmd (presented 0x4900 3).cmdWord = .error .reservedField ∧
      ∃ t, step (presented 0x4900 3) = .next t) ∧
    (∃ t, step (writing (some .idealDevice)) = .next t ∧ t.phase ≠ .idle) ∧
    (∃ t, step (readingBack (some .idealDevice)) = .next t ∧ t.phase = .idle) ∧
    (readingBack (some .idealDevice)).resetIn = false ∧ (readingBack (some .idealDevice)).phase ≠ .idle :=
  ⟨⟨by decide, ⟨_, rfl⟩⟩, ⟨_, rfl⟩, ⟨by decide, by decide, ⟨_, rfl⟩⟩, ⟨by decide, by decide, ⟨_, rfl⟩⟩,
    ⟨_, rfl, by decide⟩, ⟨_, rfl, rfl⟩, by decide, by decide⟩

/-- A step that sets the mark, and one that does not. -/
theorem witness_ContractMark : (∃ t, step (presented 0x4000 3) = .next t ∧ t.contractViolated = true) ∧
    (∃ t, step (presented 0x1000 3) = .next t ∧ t.contractViolated = false) := ⟨⟨_, rfl, rfl⟩, ⟨_, rfl, rfl⟩⟩

theorem witness_DeviceStateFollowsInit : (configured (some (plain false 0x66))).resetIn = false ∧
    (configured (some (plain false 0x66))).phase = .initRb ∧
    (2 : DeviceAddress) ≠ (configured (some (plain false 0x66))).latch.addr ∧
    (∃ t, step (configured (some (plain false 0x66))) = .next t ∧ t.phase = .idle) ∧
    ∃ t, step (reading (some (plain false 0x66))) = .next t := ⟨by decide, by decide, by decide, ⟨_, rfl, rfl⟩, ⟨_, rfl⟩⟩

theorem witness_GhostNeverChangesHardware : ∃ t, step (configured (some (plain false 0x66))) = .next t := ⟨_, rfl⟩

/-- A clean and a failed completion with the same bytes and another length. -/
theorem witness_TransportStatusNeverSteers : (readingBack (some (plain false 0x66))).phase ≠ .idle ∧
    ({ reply true 0x66 with len := 0 } : Completion).rx = (reply false 0x66).rx ∧
    (readingBack (some (plain false 0x66))).xrsp = some (.general (reply false 0x66) []) ∧
    isCommand (.frameRead 3 0xA) = false ∧
    ∃ t, exec (.frameRead 3 0xA) (readingBack (some (plain false 0x66))) = .next t :=
  ⟨by decide, by decide, by decide, by decide, ⟨_, rfl⟩⟩

/-- A completion, and a turn in which the engine waits. -/
theorem witness_PortReadAtAcceptOnly : engineNext (writing (some .idealDevice)) = true ∧
    (writing (some .idealDevice)).phase ≠ .idle ∧ (∃ t, step (writing (some .idealDevice)) = .next t) ∧
    engineNext (writing none) = true ∧ (writing none).phase ≠ .idle ∧ ∃ t, step (writing none) = .next t :=
  ⟨by decide, by decide, ⟨_, rfl⟩, by decide, by decide, ⟨_, rfl⟩⟩

theorem witness_EarlierFlagsNeverRead : (presented 0x3AFF 3).phase = .idle ∧ isCommand (.regwr 0xA 0xFF) = true ∧
    (Instr.regwr 0xA 0xFF).wellFormed = true ∧ ∃ t, exec (.regwr 0xA 0xFF) (presented 0x3AFF 3) = .next t :=
  ⟨by decide, by decide, by decide, ⟨_, rfl⟩⟩

/-- A read that ends, a write that ends, and a rejection, also while an earlier response is still valid. -/
theorem witness_CommandEndsInTable :
    ((reading (some .idealDevice)).resp.valid = false ∧ (reading (some .idealDevice)).phase ≠ .idle ∧
      ∃ t, step (reading (some .idealDevice)) = .next t ∧ t.resp.valid = true ∧ t.phase = .idle) ∧
    (∃ t, step (readingBack (some .idealDevice)) = .next t ∧ t.phase = .idle) ∧
    (∃ t, step { presented 0xFFFF 3 with resp := finishResp true 0x5A true } = .next t) :=
  ⟨⟨rfl, by decide, _, rfl, rfl, rfl⟩, ⟨_, rfl, rfl⟩, ⟨_, rfl⟩⟩

theorem witness_CommandEndsInTable_rejection :
    ({ presented 0xFFFF 3 with resp := finishResp true 0x5A true } : State).resetIn = false ∧
    engineNext { presented 0xFFFF 3 with resp := finishResp true 0x5A true } = true ∧
    ({ presented 0xFFFF 3 with resp := finishResp true 0x5A true } : State).phase = .idle ∧
    ({ presented 0xFFFF 3 with resp := finishResp true 0x5A true } : State).cmdValid = true ∧
    decodeCmd ({ presented 0xFFFF 3 with resp := finishResp true 0x5A true } : State).cmdWord = .error .illegalOpcode := by
  decide

theorem witness_LastFinishEndsRun : (reading (some .idealDevice)).resetIn = false ∧
    (reading (some .idealDevice)).phase ≠ .idle ∧ (reading (some .idealDevice)).cmdValid = false ∧
    (reading (some .idealDevice)).env.any EnvMove.presents = false ∧
    ∃ t, step (reading (some .idealDevice)) = .next t ∧ t.phase = .idle :=
  ⟨by decide, by decide, by decide, by decide, ⟨_, rfl, rfl⟩⟩

/-! ### Whole commands -/

theorem witness_DeviceReadsBackLastWrite : ((3, 0x0) : DeviceAddress × RegNum) ≠ (3, 0xA) := by decide

/-- A REGRD, and a PORTRD. -/
theorem witness_RegisterReadRuns :
    (presentedThen 0x2A00 (exchanges [plain true 0x5C])).phase = .idle ∧
    (presentedThen 0x2A00 (exchanges [plain true 0x5C])).resetIn = false ∧
    (presentedThen 0x2A00 (exchanges [plain true 0x5C])).cmdValid = true ∧
    (presentedThen 0x2A00 (exchanges [plain true 0x5C])).xrsp = none ∧ (0xA#4 : RegNum) ≤ 0xA#4 ∧
    decodeCmd (presentedThen 0x2A00 (exchanges [plain true 0x5C])).cmdWord = .ok (.regrd 0xA) ∧
    decodeCmd (presentedThen 0x4000 (exchanges [plain true 0x5C])).cmdWord = .ok .portrd ∧
    (presentedThen 0x2A00 (exchanges [plain true 0x5C])).env =
      .letEngine :: .answer (.general (reply true 0x5C) []) :: .letEngine :: [] := by decide

/-- A REGWR, and a PORTWR. -/
theorem witness_RegisterWriteRuns :
    (presentedThen 0x3AFF (exchanges [plain true 0x00, plain false 0xFF])).phase = .idle ∧
    (presentedThen 0x3AFF (exchanges [plain true 0x00, plain false 0xFF])).resetIn = false ∧
    (presentedThen 0x3AFF (exchanges [plain true 0x00, plain false 0xFF])).cmdValid = true ∧
    (presentedThen 0x3AFF (exchanges [plain true 0x00, plain false 0xFF])).xrsp = none ∧ (0xA#4 : RegNum) ≤ 0xA#4 ∧
    decodeCmd (presentedThen 0x3AFF (exchanges [plain true 0x00, plain false 0xFF])).cmdWord =
      .ok (.regwr 0xA 0xFF) ∧
    decodeCmd (presentedThen 0x50FF []).cmdWord = .ok (.portwr 0xFF) ∧
    (presentedThen 0x3AFF (exchanges [plain true 0x00, plain false 0xFF])).env =
      .letEngine :: .answer (.general (reply true 0x00) []) :: .letEngine ::
        .answer (.general (reply false 0xFF) []) :: .letEngine :: [] := by decide

theorem witness_RegisterWriteVerifiesOnIdealDevice :
    (presentedThen 0x3AFF (exchanges [.idealDevice, .idealDevice])).phase = .idle ∧
    (presentedThen 0x3AFF (exchanges [.idealDevice, .idealDevice])).resetIn = false ∧
    (presentedThen 0x3AFF (exchanges [.idealDevice, .idealDevice])).cmdValid = true ∧
    (presentedThen 0x3AFF (exchanges [.idealDevice, .idealDevice])).xrsp = none ∧ (0xA#4 : RegNum) ≤ 0xA#4 ∧
    decodeCmd (presentedThen 0x3AFF (exchanges [.idealDevice, .idealDevice])).cmdWord = .ok (.regwr 0xA 0xFF) ∧
    (presentedThen 0x3AFF (exchanges [.idealDevice, .idealDevice])).env =
      .letEngine :: .answer .idealDevice :: .letEngine :: .answer .idealDevice :: .letEngine :: [] := by decide

theorem witness_RegisterWriteFailsOnCorruptingDevice :
    (presentedThen 0x50FF (exchanges [.corruptingDevice, .corruptingDevice])).phase = .idle ∧
    (presentedThen 0x50FF (exchanges [.corruptingDevice, .corruptingDevice])).resetIn = false ∧
    (presentedThen 0x50FF (exchanges [.corruptingDevice, .corruptingDevice])).cmdValid = true ∧
    (presentedThen 0x50FF (exchanges [.corruptingDevice, .corruptingDevice])).xrsp = none ∧ (0x9#4 : RegNum) ≤ 0xA#4 ∧
    decodeCmd (presentedThen 0x50FF (exchanges [.corruptingDevice, .corruptingDevice])).cmdWord = .ok (.portwr 0xFF) ∧
    (presentedThen 0x50FF (exchanges [.corruptingDevice, .corruptingDevice])).env =
      .letEngine :: .answer .corruptingDevice :: .letEngine :: .answer .corruptingDevice :: .letEngine :: [] := by decide

/-- Nine answers and the read-back's. -/
def initMoves : List EnvMove :=
  exchanges ((List.replicate 9 (reply true 0x00, ([] : List DeviceChange))).map (fun p => Answer.general p.1 p.2) ++
    [plain false 0x66])

theorem witness_InitRuns : (presentedThen 0x1000 initMoves).phase = .idle ∧
    (presentedThen 0x1000 initMoves).resetIn = false ∧ (presentedThen 0x1000 initMoves).cmdValid = true ∧
    (presentedThen 0x1000 initMoves).xrsp = none ∧ decodeCmd (presentedThen 0x1000 initMoves).cmdWord = .ok .init ∧
    (List.replicate 9 (reply true 0x00, ([] : List DeviceChange))).length = 9 ∧
    (presentedThen 0x1000 initMoves).env =
      .letEngine ::
        ((List.replicate 9 (reply true 0x00, ([] : List DeviceChange))).map (fun p => Answer.general p.1 p.2) ++
          [Answer.general (reply false 0x66) []]).flatMap exchangeMoves ++ [] := by decide

/-- INIT before ten answers of IdealDevice; a location of each kind that INIT does not write. -/
theorem witness_InitConfiguresIdealDevice :
    (presentedThen 0x1000 (exchanges (List.replicate 10 .idealDevice))).phase = .idle ∧
    (presentedThen 0x1000 (exchanges (List.replicate 10 .idealDevice))).resetIn = false ∧
    (presentedThen 0x1000 (exchanges (List.replicate 10 .idealDevice))).cmdValid = true ∧
    (presentedThen 0x1000 (exchanges (List.replicate 10 .idealDevice))).xrsp = none ∧
    decodeCmd (presentedThen 0x1000 (exchanges (List.replicate 10 .idealDevice))).cmdWord = .ok .init ∧
    (presentedThen 0x1000 (exchanges (List.replicate 10 .idealDevice))).env =
      .letEngine :: (List.replicate 10 Answer.idealDevice).flatMap exchangeMoves ++ [] ∧
    (2 : DeviceAddress) ≠ 3 ∧ (∀ k : Fin 9, (0x7#4 : RegNum) ≠ (initReg k).number) := by decide

theorem presentedThen_inv (w : CmdWord) (e : List EnvMove) : EngineInv (presentedThen w e) where
  memWf := by
    refine ⟨List.Pairwise.nil, ?_⟩
    intro c hc
    cases hc
  regNamed := rfl
  frame := fun f hf => nomatch hf
  noStrayAnswer := fun _ => rfl
  busyNotValid := fun _ => rfl
  rxClear := fun _ => rfl
  latch := trivial
  illegalClean := fun h => nomatch h
  accepted := by
    rintro (h | h | h)
    · exact absurd rfl h
    · cases h
    · cases h
  marked := fun h => nomatch h

theorem witness_CommandsTakeFixedExchanges : EngineInv (presentedThen 0x3AFF (exchanges [.idealDevice, .idealDevice])) ∧
    (presentedThen 0x3AFF (exchanges [.idealDevice, .idealDevice])).phase = .idle ∧
    (presentedThen 0x3AFF (exchanges [.idealDevice, .idealDevice])).resetIn = false ∧
    (presentedThen 0x3AFF (exchanges [.idealDevice, .idealDevice])).cmdValid = true ∧
    decodeCmd (presentedThen 0x3AFF (exchanges [.idealDevice, .idealDevice])).cmdWord = .ok (.regwr 0xA 0xFF) ∧
    [Answer.idealDevice, .idealDevice].length = exchangesOf (.regwr 0xA 0xFF) ∧
    (presentedThen 0x3AFF (exchanges [.idealDevice, .idealDevice])).env =
      .letEngine :: [Answer.idealDevice, .idealDevice].flatMap exchangeMoves ++ [] ∧
    engineNext (presentedThen 0xFFFF []) = true ∧ decodeCmd (presentedThen 0xFFFF []).cmdWord = .error .illegalOpcode :=
  ⟨presentedThen_inv _ _, by decide⟩

/-- A step before the end of that command. -/
theorem witness_CommandsTakeFixedExchanges_busy : 1 ≤ 4 ∧ 4 < 1 + 2 * [Answer.idealDevice, .idealDevice].length ∧
    ∃ t, runSteps 4 (presentedThen 0x3AFF (exchanges [.idealDevice, .idealDevice])) = .next t :=
  ⟨by decide, by decide, ⟨_, rfl⟩⟩

/-! ### The assembler -/

theorem witness_AssemblerWords : (0xA#4 : RegNum) ≤ 0xA#4 ∧ commandWord (.regwr 0xA 0xFF) = some 0x3AFF ∧
    decodeCmd 0x2A00 = .ok (.regrd 0xA) ∧ decodeCmd 0x3AFF = .ok (.regwr 0xA 0xFF) ∧ decodeCmd 0x50AA = .ok (.portwr 0xAA) ∧
    decodeCmd 0x1000 = .ok .init ∧ decodeCmd 0x4000 = .ok .portrd ∧ decodeCmd 0xBEEF = .error .illegalOpcode := by decide

end Sys2Proof.Tests
end

/-! # The state (10_state.md): what a step can do, what it keeps, and the obligations -/

namespace Sys2Proof.Machine

/-! ## What the decoders give -/

/-- R70, R67: a word that decodes is a host command whose register field names a register. -/
theorem decodeCmd_ok {w : CmdWord} {i : Instr} (h : decodeCmd w = .ok i) : isCommand i = true ∧ i.wellFormed = true := by
  unfold decodeCmd at h
  split_ifs at h <;> cases h <;> simp_all [isCommand, Instr.wellFormed]

theorem regNamed_setWidth {b : Byte} (h : b ≤ Config.maxReg.setWidth 8) : regNamed (b.setWidth 4) = true := by
  have hb : b.toNat ≤ 10 := by simpa [Config.maxReg, BitVec.le_def] using h
  have hm : b.toNat % 16 ≤ 10 := by omega
  simpa [regNamed, Config.maxReg, BitVec.le_def] using hm

/-- R84, R77: a frame that decodes is a wire frame for a register there is. -/
theorem decodeFrame_ok {f : Frame} {i : Instr} (h : decodeFrame f = .ok i) :
    isCommand i = false ∧ i.wellFormed = true := by
  unfold decodeFrame at h
  split at h
  · cases h
  · split_ifs at h with hr <;> cases h <;> exact ⟨rfl, regNamed_setWidth hr⟩

/-! ## Accept, the same for every host command (R100) -/

/-- R26, R76: the latches a host command loads; a wire frame loads none. -/
def acceptLatches (i : Instr) (c : DeviceConfig) (l : Latches) : Latches :=
  match i with
  | .init => latchInit c l
  | .regrd reg => latchAccess 0x2#4 reg 0x00#8 c l
  | .regwr reg value => latchAccess 0x3#4 reg value c l
  | .portrd => latchAccess 0x4#4 RegisterId.port.number 0x00#8 c l
  | .portwr value => latchAccess 0x5#4 RegisterId.port.number value c l
  | .frameWrite _ _ _ => l
  | .frameRead _ _ => l

/-- R108: the phase a host command starts in; a wire frame starts none. -/
def firstPhase : Instr → Phase
  | .init => .initW 0
  | .regrd _ => .rd
  | .regwr _ _ => .wrW
  | .portrd => .rd
  | .portwr _ => .wrW
  | .frameWrite _ _ _ => .idle
  | .frameRead _ _ => .idle

/-- R100: the state a host command's accept leaves. -/
def acceptInstr (i : Instr) (s : State) : State :=
  acceptCommand (acceptLatches i s.cmdCfg s.latch) (decide (i = .init)) (firstPhase i) s

/-- R100: in IDLE a well-formed host command is accepted. -/
theorem exec_accepted {i : Instr} {s : State} (hc : isCommand i = true) (hw : i.wellFormed = true)
    (hp : s.phase = .idle) : exec i s = .next (acceptInstr i s) := by
  cases i with
  | init => exact whenReady_idle hp _
  | regrd reg => exact (if_pos hw).trans (whenReady_idle hp _)
  | regwr reg value => exact (if_pos hw).trans (whenReady_idle hp _)
  | portrd => exact whenReady_idle hp _
  | portwr value => exact whenReady_idle hp _
  | frameWrite address reg value => cases hc
  | frameRead address reg => cases hc

/-- R22, R167: in any other phase a host command is held, whatever its register field. -/
theorem exec_held {i : Instr} {s : State} (hc : isCommand i = true) (hp : s.phase ≠ .idle) : exec i s = .next s := by
  cases i with
  | init => exact whenReady_busy hp _
  | regrd reg => simp [exec, execRegrd, hp]
  | regwr reg value => simp [exec, execRegwr, hp]
  | portrd => exact whenReady_busy hp _
  | portwr value => exact whenReady_busy hp _
  | frameWrite address reg value => cases hc
  | frameRead address reg => cases hc

theorem acceptLatches_addr {i : Instr} (hc : isCommand i = true) (c : DeviceConfig) (l : Latches) :
    (acceptLatches i c l).addr = c.address := by
  cases i with
  | frameWrite address reg value => cases hc
  | frameRead address reg => cases hc
  | _ => rfl

theorem regNamed_acceptLatches {i : Instr} (hw : i.wellFormed = true) (c : DeviceConfig) {l : Latches}
    (hl : regNamed l.reg = true) : regNamed (acceptLatches i c l).reg = true := by
  cases i with
  | init => exact hl
  | regrd reg => exact hw
  | regwr reg value => exact hw
  | portrd => rfl
  | portwr value => rfl
  | frameWrite address reg value => exact hl
  | frameRead address reg => exact hl

theorem firstPhase_ne_idle {i : Instr} (hc : isCommand i = true) : firstPhase i ≠ .idle := by
  cases i <;> simp_all [firstPhase, isCommand]

theorem isAccess_firstPhase {i : Instr} (h : (firstPhase i).isAccess = true) : i ≠ .init := by
  rintro rfl
  cases h

theorem latchFits_accept (i : Instr) (c : DeviceConfig) (l : Latches) :
    latchFits (firstPhase i) (acceptLatches i c l) := by
  cases i <;> simp [firstPhase, acceptLatches, latchFits, latchInit, latchAccess, RegisterId.number]

/-- R39: what the mark is after an accept. -/
theorem acceptInstr_contractViolated {i : Instr} (hc : isCommand i = true) (s : State) :
    (acceptInstr i s).contractViolated = true ↔
      s.contractViolated = true ∨ (i ≠ .init ∧ devStateAt s s.cmdCfg.address = .uninitialized) := by
  simp [acceptInstr, acceptLatches_addr hc, contractMark]

/-! ## The exchange of a frame -/

/-- How the transport answers the frame of an instruction (R12, R52, R64); the register is one of the 11 (R77). -/
inductive FrameAnswer : Instr → (Answer → State → Completion × State) → Prop where
  | write (address : DeviceAddress) {reg : RegNum} (value : Byte) (hr : regNamed reg = true) :
      FrameAnswer (.frameWrite address reg value) (fun a => answerWrite a address reg value)
  | read (address : DeviceAddress) {reg : RegNum} (hr : regNamed reg = true) :
      FrameAnswer (.frameRead address reg) (fun a => answerRead a address reg)

theorem FrameAnswer.exists_of_wellFormed {i : Instr} (hc : isCommand i = false) (hw : i.wellFormed = true) :
    ∃ f, FrameAnswer i f := by
  cases i with
  | frameWrite address reg value => exact ⟨_, .write address value hw⟩
  | frameRead address reg => exact ⟨_, .read address hw⟩
  | _ => cases hc

theorem FrameAnswer.exec_eq {i : Instr} {f : Answer → State → Completion × State} (hf : FrameAnswer i f) (s : State) :
    exec i s = exchange f s := by
  cases hf with
  | write address value hr => exact if_pos hr
  | read address hr => exact if_pos hr

/-- An answer changes the expanders' registers, within DevSpace, and the count of free values, and nothing else. -/
theorem FrameAnswer.state_eq {i : Instr} {f : Answer → State → Completion × State} (hf : FrameAnswer i f) (a : Answer)
    (s : State) : ∃ m n, (f a s).2 = { s with mem := m, freeCount := n } ∧ (s.mem.wf → m.wf) := by
  cases hf with
  | write address value hr =>
    cases a with
    | idealDevice => exact ⟨_, _, rfl, fun hm => devWrite_wf hm address hr _⟩
    | corruptingDevice => exact ⟨_, _, rfl, fun hm => devWrite_wf hm address hr _⟩
    | general c changes => exact ⟨_, _, rfl, applyChanges_wf changes⟩
  | read address hr =>
    cases a with
    | idealDevice => exact ⟨_, _, rfl, id⟩
    | corruptingDevice => exact ⟨_, _, rfl, id⟩
    | general c changes => exact ⟨_, _, rfl, applyChanges_wf changes⟩

/-! ## Everything a step can do -/

/-- The moves of one step, with their whole next states: `step_iff` says there are no others. -/
inductive StepEffect (s : State) : State → Prop where
  /-- R160. -/
  | reset (hr : s.resetIn = true) : StepEffect s (resetEngine s)
  /-- The host or the transport moves (log 1). -/
  | envMoves (hr : s.resetIn = false) (he : envNext s = true) : StepEffect s (envStep s)
  /-- R100. -/
  | accepts {i : Instr} (hn : engineNext s = true) (hp : s.phase = .idle) (hv : s.cmdValid = true)
      (hd : decodeCmd s.cmdWord = .ok i) : StepEffect s (acceptInstr i (takeTurn s))
  /-- R139. -/
  | rejects {e : DecodeError} (hn : engineNext s = true) (hp : s.phase = .idle) (hv : s.cmdValid = true)
      (hd : decodeCmd s.cmdWord = .error e) : StepEffect s (raiseIllegal (takeTurn s))
  /-- The engine has no step enabled (R147, R164). -/
  | passes (hn : engineNext s = true)
      (hw : (s.phase = .idle ∧ s.cmdValid = false) ∨ (s.phase ≠ .idle ∧ s.xrsp = none)) : StepEffect s (takeTurn s)
  /-- R101. -/
  | completes {a : Answer} {i : Instr} {f : Answer → State → Completion × State} (hn : engineNext s = true)
      (hp : s.phase ≠ .idle) (hx : s.xrsp = some a) (hd : decodeFrame s.tx = .ok i) (hf : FrameAnswer i f) :
      StepEffect s (complete (f a (takeTurn s)).1 (f a (takeTurn s)).2)

theorem StepEffect.of_step {s t : State} (h : step s = .next t) : StepEffect s t := by
  obtain ⟨hr, rfl⟩ | ⟨hr, he, rfl⟩ | ⟨hn, hp, hv, ⟨i, hd, hx⟩ | ⟨e, hd, rfl⟩⟩ | ⟨hn, hw, rfl⟩ |
    ⟨hn, hp, a, i, ha, hd, hx⟩ := step_cases h
  · exact .reset hr
  · exact .envMoves hr he
  · obtain ⟨hc, hw⟩ := decodeCmd_ok hd
    obtain rfl := Host.Outcome.next.inj ((exec_accepted (s := takeTurn s) hc hw hp).symm.trans hx)
    exact .accepts hn hp hv hd
  · exact .rejects hn hp hv hd
  · exact .passes hn hw
  · obtain ⟨hc, hw⟩ := decodeFrame_ok hd
    obtain ⟨f, hf⟩ := FrameAnswer.exists_of_wellFormed hc hw
    have he := (hf.exec_eq (takeTurn s)).symm.trans hx
    rw [exchange_answered (s := takeTurn s) hp ha f] at he
    obtain rfl := Host.Outcome.next.inj he
    exact .completes hn hp ha hd hf

theorem turn_of_engine_idle {s : State} (hn : engineNext s = true) (hp : s.phase = .idle) :
    turn s = if s.cmdValid then turnOfCommand s.cmdWord else .envTurn := by
  obtain ⟨hr, he⟩ := engineNext_iff.1 hn
  simp [turn, hr, he, hp]

theorem turn_of_engine_busy {s : State} (hn : engineNext s = true) (hp : s.phase ≠ .idle) :
    turn s = if s.xrsp.isSome then turnOfFrame s.tx else .envTurn := by
  obtain ⟨hr, he⟩ := engineNext_iff.1 hn
  cases hx : s.xrsp <;> cases hq : s.phase <;> simp_all [turn]

theorem StepEffect.step_eq {s t : State} (h : StepEffect s t) : step s = .next t := by
  cases h with
  | reset hr => simp [step, turn, hr]
  | envMoves hr he => simp [step, turn, hr, he]
  | accepts hn hp hv hd =>
    obtain ⟨hc, hw⟩ := decodeCmd_ok hd
    simpa [step, turn_of_engine_idle hn hp, hv, turnOfCommand, hd] using exec_accepted (s := takeTurn s) hc hw hp
  | rejects hn hp hv hd => simp [step, turn_of_engine_idle hn hp, hv, turnOfCommand, hd]
  | passes hn hw =>
    have ht : turn s = .envTurn := by
      obtain ⟨hp, hv⟩ | ⟨hp, hx⟩ := hw
      · simp [turn_of_engine_idle hn hp, hv]
      · simp [turn_of_engine_busy hn hp, hx]
    simp [step, ht, envStep_of_engine (engineNext_iff.1 hn).2]
  | completes hn hp hx hd hf =>
    simpa [step, turn_of_engine_busy hn hp, hx, turnOfFrame, hd] using
      (hf.exec_eq _).trans (exchange_answered (s := takeTurn s) hp hx _)

theorem step_iff {s t : State} : step s = .next t ↔ StepEffect s t := ⟨.of_step, StepEffect.step_eq⟩

/-! ## Completion, the same for every phase (R101, R102) -/

theorem afterInitWrite_ne_idle (k : Fin 9) : afterInitWrite k ≠ .idle := by
  unfold afterInitWrite; split <;> simp

theorem isAccess_afterInitWrite (k : Fin 9) : (afterInitWrite k).isAccess = false := by
  unfold afterInitWrite; split <;> rfl

theorem latchFits_afterInitWrite {k : Fin 9} {l : Latches} (h : latchFits (.initW k) l) :
    latchFits (afterInitWrite k) l := by
  unfold afterInitWrite; split <;> exact h

/-- A completion leads to the command's next exchange, or finishes it; `dev_state` moves at a finish only. -/
theorem complete_cases {s : State} (hp : s.phase ≠ .idle) (c : Completion) :
    (∃ p, complete c s = enter p (receive c s) ∧ p ≠ .idle ∧ p.isAccess = s.phase.isAccess ∧
      (latchFits s.phase s.latch → latchFits p s.latch)) ∨
    (∃ verified d, complete c s = finish verified c.rx.b2 { receive c s with devState := d } ∧
      (s.phase = .rd → verified = false) ∧ (s.phase = .wrRb → verified = (c.rx.b2 == s.latch.val)) ∧
      (s.phase = .initRb → verified = (c.rx.b2 == s.latch.rc.configuration))) := by
  cases h : s.phase with
  | idle => contradiction
  | initW k =>
    exact .inl ⟨_, complete_initW h c, afterInitWrite_ne_idle k, isAccess_afterInitWrite k, latchFits_afterInitWrite⟩
  | wrW => exact .inl ⟨_, complete_wrW h c, nofun, rfl, id⟩
  | initRb => exact .inr ⟨_, _, complete_initRb h c, nofun, nofun, fun _ => rfl⟩
  | wrRb => exact .inr ⟨_, _, complete_wrRb h c, nofun, fun _ => rfl, nofun⟩
  | rd => exact .inr ⟨_, _, complete_rd h c, fun _ => rfl, nofun, nofun⟩

/-! ## The engine's invariant -/

/-- The invariant looks at no port of the host and at no move to come: only memory, the engine's registers and the ghost state
must be as they were, and in IDLE no answer may be there. -/
theorem EngineInv.congr {s t : State} (hi : EngineInv s) (hm : t.mem.wf) (hx : t.phase = .idle → t.xrsp = none)
    (hphase : t.phase = s.phase) (hlatch : t.latch = s.latch) (htx : t.tx = s.tx) (hrx : t.rx = s.rx)
    (hresp : t.resp = s.resp) (hdev : t.devState = s.devState) (hmark : t.contractViolated = s.contractViolated)
    (hacc : t.everAccepted = s.everAccepted) : EngineInv t where
  memWf := hm
  regNamed := hlatch ▸ hi.regNamed
  frame := by rw [hphase, hlatch, htx]; exact hi.frame
  noStrayAnswer := hx
  busyNotValid := by rw [hphase, hresp]; exact hi.busyNotValid
  rxClear := by rw [hphase, hrx]; exact hi.rxClear
  latch := by rw [hphase, hlatch]; exact hi.latch
  illegalClean := by rw [hresp]; exact hi.illegalClean
  accepted := by rw [hphase, hresp, hmark, hacc]; exact hi.accepted
  marked := by
    have hd : devStateAt t = devStateAt s := by funext a; simp only [devStateAt, hdev]
    rw [hphase, hlatch, hmark, hd]; exact hi.marked

/-- Issuing an exchange sets the frame and clears the receive buffer; the rest of the invariant must be there. -/
theorem engineInv_enter {s : State} {p : Phase} (hp : p ≠ .idle) (hm : s.mem.wf) (hr : regNamed s.latch.reg = true)
    (hv : s.resp.valid = false) (hl : latchFits p s.latch)
    (hill : s.resp.illegal = true → s.resp.verified = false ∧ s.resp.byte = 0 ∧ s.resp.xferOk = false)
    (hacc : s.everAccepted = true)
    (hmark : p.isAccess = true → devStateAt s s.latch.addr = .uninitialized → s.contractViolated = true) :
    EngineInv (enter p s) where
  memWf := hm
  regNamed := hr
  frame := fun f hf => by
    have hf' : frameFor p s.latch = some f := hf
    simp [hf']
  noStrayAnswer := fun h => absurd h hp
  busyNotValid := fun _ => hv
  rxClear := fun _ => rfl
  latch := hl
  illegalClean := hill
  accepted := fun _ => hacc
  marked := hmark

/-- A state in IDLE has nothing to fit: no frame, no latches, no mark. -/
theorem engineInv_of_idle {s : State} (hp : s.phase = .idle) (hm : s.mem.wf) (hr : regNamed s.latch.reg = true)
    (hx : s.xrsp = none)
    (hill : s.resp.illegal = true → s.resp.verified = false ∧ s.resp.byte = 0 ∧ s.resp.xferOk = false)
    (hacc : s.resp.valid = true ∨ s.contractViolated = true → s.everAccepted = true) : EngineInv s where
  memWf := hm
  regNamed := hr
  frame := by simp [hp, frameFor]
  noStrayAnswer := fun _ => hx
  busyNotValid := fun h => absurd hp h
  rxClear := fun h => absurd hp h
  latch := by rw [hp]; trivial
  illegalClean := hill
  accepted := fun h => hacc (h.resolve_left (absurd hp))
  marked := by simp [hp, Phase.isAccess]

theorem EngineInv.after_takeTurn {s : State} (hi : EngineInv s) : EngineInv (takeTurn s) :=
  hi.congr hi.memWf hi.noStrayAnswer rfl rfl rfl rfl rfl rfl rfl rfl

theorem envStep_cons {s : State} {m : EnvMove} {ms : List EnvMove} (h : s.env = m :: ms) :
    envStep s = applyMove m { s with env := ms } := by
  simp [envStep, h]

/-- R25: no move of the host or the transport puts an answer on the port of an IDLE engine. -/
theorem envStep_xrsp_of_idle {s : State} (hp : s.phase = .idle) : (envStep s).xrsp = s.xrsp := by
  cases he : s.env with
  | nil => simp [envStep, he]
  | cons m ms =>
    rw [envStep_cons he]
    cases m with
    | answer a => exact (congrArg State.xrsp (answerRequest_ignored (s := { s with env := ms }) (.inl hp) a) :)
    | _ => rfl

theorem EngineInv.after_envStep {s : State} (hi : EngineInv s) : EngineInv (envStep s) := by
  have hx : (envStep s).phase = .idle → (envStep s).xrsp = none := fun h => by
    have hp : s.phase = .idle := envStep_phase s ▸ h
    exact (envStep_xrsp_of_idle hp).trans (hi.noStrayAnswer hp)
  exact hi.congr (envStep_mem s ▸ hi.memWf) hx (envStep_phase s) (envStep_latch s) (envStep_tx s) (envStep_rx s)
    (envStep_resp s) (envStep_devState s) (envStep_contractViolated s) (envStep_everAccepted s)

/-- R100, R152: an accept loads latches that fit the phase it starts, and sets the mark where the device is Uninitialized. -/
theorem EngineInv.after_accept {s : State} (hi : EngineInv s) {i : Instr} (hc : isCommand i = true)
    (hw : i.wellFormed = true) : EngineInv (acceptInstr i s) := by
  refine engineInv_enter (firstPhase_ne_idle hc) hi.memWf (regNamed_acceptLatches hw _ hi.regNamed) rfl
    (latchFits_accept i _ _) hi.illegalClean rfl fun ha hu => ?_
  have hu' : devStateAt s s.cmdCfg.address = .uninitialized := acceptLatches_addr hc s.cmdCfg s.latch ▸ hu
  exact (acceptInstr_contractViolated hc s).2 (.inr ⟨isAccess_firstPhase ha, hu'⟩)

/-- R139: a rejection writes a response that carries nothing but `illegal`. -/
theorem EngineInv.after_rejection {s : State} (hi : EngineInv s) (hp : s.phase = .idle) : EngineInv (raiseIllegal s) :=
  engineInv_of_idle hp hi.memWf hi.regNamed (hi.noStrayAnswer hp) (fun _ => ⟨rfl, rfl, rfl⟩) (fun _ => rfl)

/-- R101, R102: a completion goes on to a phase its latches fit, or ends in IDLE with the answer used up. -/
theorem EngineInv.after_completion {s : State} (hi : EngineInv s) (hp : s.phase ≠ .idle) (c : Completion) :
    EngineInv (complete c s) := by
  have hacc : s.everAccepted = true := hi.accepted (.inl hp)
  obtain ⟨p, he, hpi, ha, hl⟩ | ⟨v, d, he, -⟩ := complete_cases hp c
  · rw [he]
    exact engineInv_enter hpi hi.memWf hi.regNamed (hi.busyNotValid hp) (hl hi.latch) hi.illegalClean hacc
      fun h => hi.marked (ha ▸ h)
  · rw [he]
    exact engineInv_of_idle rfl hi.memWf hi.regNamed rfl nofun fun _ => hacc

/-- R49, R161: the registers stay within DevSpace whether or not the exchange that reset cuts off took effect. -/
theorem memAfterCutOff_wf {s : State} (hm : s.mem.wf) : (memAfterCutOff s).wf := by
  have happ : (memIfApplied s).wf := by
    unfold memIfApplied
    split
    · rename_i a r v hd _
      exact devWrite_wf hm a (decodeFrame_ok hd).2 v
    · rename_i a r v ans hd _
      obtain ⟨m, n, he, hwf⟩ := (FrameAnswer.write a v (decodeFrame_ok hd).2).state_eq ans s
      exact (congrArg State.mem he) ▸ hwf hm
    · rename_i a r ans hd _
      obtain ⟨m, n, he, hwf⟩ := (FrameAnswer.read a (decodeFrame_ok hd).2).state_eq ans s
      exact (congrArg State.mem he) ▸ hwf hm
    · exact hm
  unfold memAfterCutOff
  split
  · exact hm
  · split
    · exact happ
    · exact hm

theorem EngineInv.after_reset {s : State} (hi : EngineInv s) : EngineInv (resetEngine s) :=
  engineInv_of_idle rfl (memAfterCutOff_wf hi.memWf) rfl rfl nofun
    fun h => hi.accepted (.inr (.inr (h.resolve_left nofun)))

/-! ## What a completion does to the response and the mark -/

@[simp] theorem complete_contractViolated (c : Completion) (s : State) :
    (complete c s).contractViolated = s.contractViolated := by
  unfold complete advance; split <;> rfl

/-- R44: while the command goes on the response is not written. -/
theorem complete_resp_of_busy {s : State} (hp : s.phase ≠ .idle) {c : Completion} (h : (complete c s).phase ≠ .idle) :
    (complete c s).resp = s.resp := by
  obtain ⟨p, he, -⟩ | ⟨v, d, he, -⟩ := complete_cases hp c
  · rw [he]; rfl
  · rw [he] at h; exact absurd rfl h

/-- R102: a finish writes every field of the response, `verified` as the command's last phase says. -/
theorem complete_resp_of_idle {s : State} (hp : s.phase ≠ .idle) {c : Completion} (h : (complete c s).phase = .idle) :
    ∃ verified, (complete c s).resp = finishResp verified (complete c s).rx.b2 (complete c s).accOk ∧
      (s.phase = .rd → verified = false) ∧ (s.phase = .wrRb → verified = ((complete c s).rx.b2 == s.latch.val)) ∧
      (s.phase = .initRb → verified = ((complete c s).rx.b2 == s.latch.rc.configuration)) := by
  obtain ⟨p, he, hpi, -⟩ | ⟨v, d, he, hv⟩ := complete_cases hp c
  · rw [he] at h; exact absurd h hpi
  · rw [he]; exact ⟨v, rfl, hv⟩

/-! ## Another ghost state (R38, R152) -/

/-- The same hardware with another ghost state. -/
def withGhost (d : Vector DevState 4) (m : Bool) (s : State) : State := { s with devState := d, contractViolated := m }

theorem answerWrite_withGhost (a : Answer) (address : DeviceAddress) (reg : RegNum) (v : Byte) (d : Vector DevState 4)
    (m : Bool) (s : State) : answerWrite a address reg v (withGhost d m s) =
      ((answerWrite a address reg v s).1, withGhost d m (answerWrite a address reg v s).2) := by
  cases a <;> rfl

theorem answerRead_withGhost (a : Answer) (address : DeviceAddress) (reg : RegNum) (d : Vector DevState 4)
    (m : Bool) (s : State) : answerRead a address reg (withGhost d m s) =
      ((answerRead a address reg s).1, withGhost d m (answerRead a address reg s).2) := by
  cases a <;> rfl

theorem FrameAnswer.of_withGhost {i : Instr} {f : Answer → State → Completion × State} (hf : FrameAnswer i f)
    (a : Answer) (d : Vector DevState 4) (m : Bool) (s : State) :
    f a (withGhost d m s) = ((f a s).1, withGhost d m (f a s).2) := by
  cases hf with
  | write address value hr => exact answerWrite_withGhost a address _ value d m s
  | read address hr => exact answerRead_withGhost a address _ d m s

theorem answerRequest_withGhost (a : Answer) (d : Vector DevState 4) (m : Bool) (s : State) :
    answerRequest a (withGhost d m s) = withGhost d m (answerRequest a s) := by
  by_cases h : s.phase = .idle ∨ s.xrsp ≠ none
  · rw [answerRequest_ignored h, answerRequest_ignored (s := withGhost d m s) h]
  · obtain ⟨hp, hx⟩ := not_or.1 h
    have hx' : s.xrsp = none := not_not.1 hx
    rw [answerRequest_outstanding hp hx', answerRequest_outstanding (s := withGhost d m s) hp hx']
    rfl

theorem envStep_withGhost (d : Vector DevState 4) (m : Bool) (s : State) :
    envStep (withGhost d m s) = withGhost d m (envStep s) := by
  cases he : s.env with
  | nil => simp [envStep, withGhost, he]
  | cons mv ms =>
    rw [envStep_cons he, envStep_cons (s := withGhost d m s) he]
    cases mv with
    | answer a => exact answerRequest_withGhost a d m { s with env := ms }
    | _ => rfl

/-- R125: only INIT's finish moves `dev_state`, whatever it was. -/
theorem complete_withGhost (c : Completion) (d : Vector DevState 4) (m : Bool) (s : State) :
    ∃ d', complete c (withGhost d m s) = withGhost d' m (complete c s) := by
  cases hp : s.phase with
  | idle => rw [complete_idle hp, complete_idle (s := withGhost d m s) hp]; exact ⟨_, rfl⟩
  | initW k => rw [complete_initW hp, complete_initW (s := withGhost d m s) hp]; exact ⟨_, rfl⟩
  | initRb => rw [complete_initRb hp, complete_initRb (s := withGhost d m s) hp]; exact ⟨_, rfl⟩
  | wrW => rw [complete_wrW hp, complete_wrW (s := withGhost d m s) hp]; exact ⟨_, rfl⟩
  | wrRb => rw [complete_wrRb hp, complete_wrRb (s := withGhost d m s) hp]; exact ⟨_, rfl⟩
  | rd => rw [complete_rd hp, complete_rd (s := withGhost d m s) hp]; exact ⟨_, rfl⟩

theorem memIfApplied_withGhost (d : Vector DevState 4) (m : Bool) (s : State) :
    memIfApplied (withGhost d m s) = memIfApplied s := by
  have htx : (withGhost d m s).tx = s.tx := rfl
  have hx : (withGhost d m s).xrsp = s.xrsp := rfl
  unfold memIfApplied
  rw [htx, hx]
  split
  · rfl
  · rw [answerWrite_withGhost]; rfl
  · rw [answerRead_withGhost]; rfl
  · rfl

theorem resetEngine_withGhost (d : Vector DevState 4) (m : Bool) (s : State) :
    resetEngine (withGhost d m s) = withGhost (resetEngine s).devState m (resetEngine s) := by
  have hm : memAfterCutOff (withGhost d m s) = memAfterCutOff s := by
    have happ := memIfApplied_withGhost d m s
    simp only [memAfterCutOff, happ]
    rfl
  simp only [resetEngine, hm]
  rfl

/-- Each move does the same to the hardware from another ghost state. -/
theorem StepEffect.changeGhost {s t : State} (h : StepEffect s t) (d : Vector DevState 4) (m : Bool) :
    ∃ d' m', StepEffect (withGhost d m s) (withGhost d' m' t) := by
  cases h with
  | reset hr => exact ⟨_, m, resetEngine_withGhost d m s ▸ StepEffect.reset (s := withGhost d m s) hr⟩
  | envMoves hr he => exact ⟨d, m, envStep_withGhost d m s ▸ .envMoves hr he⟩
  | accepts hn hp hv hd => exact ⟨_, _, .accepts (s := withGhost d m s) hn hp hv hd⟩
  | rejects hn hp hv hd => exact ⟨_, _, .rejects (s := withGhost d m s) hn hp hv hd⟩
  | passes hn hw => exact ⟨_, _, .passes (s := withGhost d m s) hn hw⟩
  | @completes a i f hn hp hx hd hf =>
    have hc := StepEffect.completes (s := withGhost d m s) hn hp hx hd hf
    have ha : f a (takeTurn (withGhost d m s)) = _ := hf.of_withGhost a d m (takeTurn s)
    obtain ⟨d', he⟩ := complete_withGhost (f a (takeTurn s)).1 d m (f a (takeTurn s)).2
    exact ⟨d', m, by rwa [ha, he] at hc⟩

/-! ## The numbers of the phases (R24) -/

/-- The phase with a number; 14 and 15 are none's. -/
def phaseOfCode (n : BitVec 4) : Phase :=
  if n.toNat = 0 then .idle
  else if h : n.toNat < 10 then .initW ⟨n.toNat - 1, by omega⟩
  else if n.toNat = 10 then .initRb
  else if n.toNat = 11 then .wrW
  else if n.toNat = 12 then .wrRb
  else .rd

theorem phaseOfCode_code : Function.LeftInverse phaseOfCode Phase.code := by
  intro p
  cases p with
  | initW k => revert k; decide
  | _ => rfl

/-! ## A move of the host or the transport, and a turn that passes (log 1) -/

theorem step_of_envNext {s : State} (hr : s.resetIn = false) (he : envNext s = true) : step s = .next (envStep s) :=
  StepEffect.step_eq (.envMoves hr he)

end Sys2Proof.Machine

/-! ## The obligations of 10_state.md -/

namespace Sys2Proof.Proofs

open Sys2Proof.Machine

/-- Settles O36, move by move (`StepEffect`). -/
theorem stepKeepsInvariant : Obligations.StepKeepsInvariant := by
  intro s t hi h
  cases StepEffect.of_step h with
  | reset hr => exact hi.after_reset
  | envMoves hr he => exact hi.after_envStep
  | accepts hn hp hv hd =>
    obtain ⟨hc, hw⟩ := decodeCmd_ok hd
    exact hi.after_takeTurn.after_accept hc hw
  | rejects hn hp hv hd => exact hi.after_takeTurn.after_rejection hp
  | passes hn hw => exact hi.after_takeTurn
  | @completes a i f hn hp hx hd hf =>
    obtain ⟨m, n, he, hm⟩ := hf.state_eq a (takeTurn s)
    have hi' : EngineInv { takeTurn s with mem := m, freeCount := n } :=
      hi.congr (hm hi.memWf) (fun h => absurd h hp) rfl rfl rfl rfl rfl rfl rfl rfl
    rw [he]
    exact hi'.after_completion hp _

/-- Settles O41, move by move (`StepEffect`). -/
theorem responseHeld : Obligations.ResponseHeld := by
  intro s t hres h
  cases StepEffect.of_step h with
  | reset hr => simp [hr] at hres
  | envMoves hr he =>
    have hn : engineNext s = false := by simp [engineNext, he]
    exact ⟨fun _ => envStep_resp s, fun _ _ => envStep_resp s, by simp [hn], by simp [hn], fun _ _ => envStep_resp s,
      fun hp hq => absurd (envStep_phase s ▸ hq) hp⟩
  | accepts hn hp hv hd => simp [hn, hp, hv, acceptInstr, hd]
  | rejects hn hp hv hd => simp [hn, hp, hv, hd, illegalResp]
  | passes hn hw =>
    obtain ⟨hp, hv⟩ | ⟨hp, hx⟩ := hw
    · simp [hp, hv]
    · simp [hp]
  | @completes a i f hn hp hx hd hf =>
    obtain ⟨m, n, he, -⟩ := hf.state_eq a (takeTurn s)
    rw [he]
    refine ⟨by simp [hn], fun h => absurd h hp, fun _ _ h => absurd h hp, fun _ _ h => absurd h hp, ?_, ?_⟩
    · exact fun _ => complete_resp_of_busy (s := { takeTurn s with mem := m, freeCount := n }) hp
    · exact fun _ => complete_resp_of_idle (s := { takeTurn s with mem := m, freeCount := n }) hp

/-- Settles O42: of the moves only an accept writes the mark. -/
theorem contractMark : Obligations.ContractMark := by
  intro s t h
  cases StepEffect.of_step h with
  | reset hr => simp [engineNext, hr]
  | envMoves hr he => simp [engineNext, he]
  | accepts hn hp hv hd =>
    rw [acceptInstr_contractViolated (decodeCmd_ok hd).1]
    simp [hn, hp, hv, hd, devStateAt, and_comm]
  | rejects hn hp hv hd => simp [hd]
  | passes hn hw =>
    obtain ⟨hp, hv⟩ | ⟨hp, hx⟩ := hw
    · simp [hv]
    · simp [hp]
  | @completes a i f hn hp hx hd hf =>
    obtain ⟨m, n, he, -⟩ := hf.state_eq a (takeTurn s)
    simp [he, hp]

/-- Settles O44: the move is the same from another ghost state. -/
theorem ghostNeverChangesHardware : Obligations.GhostNeverChangesHardware := by
  intro s t d m h
  obtain ⟨d', m', h'⟩ := (StepEffect.of_step h).changeGhost d m
  exact ⟨d', m', h'.step_eq⟩

/-- Settles O47: the accept of a command is `acceptInstr`, which reads no flag. -/
theorem earlierFlagsNeverRead : Obligations.EarlierFlagsNeverRead := by
  intro s t i r ok hp hc hw h
  obtain rfl := Host.Outcome.next.inj ((exec_accepted hc hw hp).symm.trans h)
  exact exec_accepted (s := { s with resp := r, accOk := ok }) hc hw hp

/-- Settles O18. -/
theorem busyEngineHoldsCommand : Obligations.BusyEngineHoldsCommand :=
  fun _ _ hc hp => exec_held hc hp

/-- Settles O30. -/
theorem resetValues : Obligations.ResetValues :=
  ⟨rfl, rfl, rfl, rfl, rfl, rfl, rfl, rfl, rfl, rfl, rfl, rfl, by simp [devStateAt, State.reset], rfl, fun _ _ => rfl⟩

/-- Settles O34, entry by entry of `env`. -/
theorem environmentDrivesItsPorts : Obligations.EnvironmentDrivesItsPorts := by
  intro s rest hr
  refine ⟨fun w c he => ?_, fun he => ?_, fun he => ?_, fun ans hp hx he => ?_, fun hw he => ?_⟩
  · rw [step_of_envNext hr (by simp [envNext, he]), envStep_cons he]; rfl
  · rw [step_of_envNext hr (by simp [envNext, he]), envStep_cons he]; rfl
  · have h1 : step s = .next { s with env := rest, resetIn := true } := by
      rw [step_of_envNext hr (by simp [envNext, he]), envStep_cons he]; rfl
    have h2 : step { s with env := rest, resetIn := true } = _ := StepEffect.step_eq (.reset rfl)
    exact ⟨h1, by simp [runSteps, h1, h2]⟩
  · rw [step_of_envNext hr (by simp [envNext, he]), envStep_cons he]
    exact congrArg _ (answerRequest_outstanding (s := { s with env := rest }) hp hx ans)
  · have hn : engineNext s = true := by simp [engineNext, envNext, hr, he]
    rw [StepEffect.step_eq (.passes hn hw), takeTurn, he]; rfl

/-- Settles O35. -/
theorem invariantAtReset : Obligations.InvariantAtReset :=
  engineInv_of_idle rfl ⟨.nil, nofun⟩ rfl rfl nofun (by simp [State.reset, Resp.reset])

/-- Settles O40: a phase is read back from its number. -/
theorem phaseValues : Obligations.PhaseValues :=
  ⟨rfl, by decide, rfl, rfl, rfl, rfl, fun _ _ h => phaseOfCode_code.injective h⟩

end Sys2Proof.Proofs

/-! # The expanders' registers (20_memory.md): the two reference devices, one exchange, and the obligations -/

namespace Sys2Proof.Machine

/-! ## The registers as the device reads and writes them (R52, R63) -/

@[simp] theorem devRead_devWrite_same (m : Memory) (a : DeviceAddress) (r : RegNum) (v : Byte) :
    devRead (devWrite m a r v) a r = v := by
  simp [devRead, devWrite]

theorem devRead_devWrite_other (m : Memory) {a a' : DeviceAddress} {r r' : RegNum} (v : Byte) (h : (a', r') ≠ (a, r)) :
    devRead (devWrite m a r v) a' r' = devRead m a' r' := by
  have hk : devKey a' r' ≠ devKey a r := fun hk => h (Prod.ext_iff.2 (devKey_inj.1 hk))
  simp only [devRead, devWrite, Memory.lookup_put_other m v hk]

/-- R64: `g(v) != v`, whatever the free mask. -/
theorem corrupted_ne (v : Byte) : corrupted v ≠ v := by
  unfold corrupted
  intro h
  have hm := (BitVec.xor_right_inj v).1 (h.trans BitVec.xor_zero.symm)
  split at hm
  · cases hm
  · contradiction

/-! ## Which frames there are (R67, U11) -/

theorem regNamed_of_le {reg : RegNum} (h : reg ≤ 0xA#4) : regNamed reg = true := decide_eq_true h

theorem regNamed_of_beyond {reg : RegNum} (h : 0xB#4 ≤ reg) : regNamed reg = false := by
  revert reg; decide

theorem setWidth_le_of_regNamed {reg : RegNum} (h : regNamed reg = true) : reg.setWidth 8 ≤ Config.maxReg.setWidth 8 := by
  revert reg; decide

theorem setWidth_setWidth_regNum (reg : RegNum) : (reg.setWidth 8).setWidth 4 = reg :=
  BitVec.setWidth_setWidth_of_le reg (by decide)

/-- R84, R85: what a bus monitor reads from a write frame. -/
theorem monitorFrame_encodeWrite (a : DeviceAddress) (reg : RegNum) (v : Byte) :
    monitorFrame (encodeWrite a reg v) = some { read := false, address := a, reg := reg.setWidth 8, data := v } := by
  have hb0 : ∀ a, controlPattern (encodeWrite a 0 0).b0 = 0b01000#5 ∧ controlRead (encodeWrite a 0 0).b0 = false ∧
      controlAddress (encodeWrite a 0 0).b0 = a := by decide
  obtain ⟨hp, hr, ha⟩ := hb0 a
  exact (if_pos hp).trans (congrArg₂ (fun r d => some (FrameFields.mk r d (reg.setWidth 8) v)) hr ha)

/-- R84, R86: what a bus monitor reads from a read request. -/
theorem monitorFrame_encodeRead (a : DeviceAddress) (reg : RegNum) :
    monitorFrame (encodeRead a reg) =
      some { read := true, address := a, reg := reg.setWidth 8, data := Config.readPlaceholder } := by
  have hb0 : ∀ a, controlPattern (encodeRead a 0).b0 = 0b01000#5 ∧ controlRead (encodeRead a 0).b0 = true ∧
      controlAddress (encodeRead a 0).b0 = a := by decide
  obtain ⟨hp, hr, ha⟩ := hb0 a
  exact (if_pos hp).trans
    (congrArg₂ (fun r d => some (FrameFields.mk r d (reg.setWidth 8) Config.readPlaceholder)) hr ha)

theorem decodeFrame_encodeWrite (a : DeviceAddress) {reg : RegNum} (hr : regNamed reg = true) (v : Byte) :
    decodeFrame (encodeWrite a reg v) = .ok (.frameWrite a reg v) := by
  simp only [decodeFrame, monitorFrame_encodeWrite, setWidth_le_of_regNamed hr, setWidth_setWidth_regNum, if_true,
    Bool.false_eq_true, if_false]

theorem decodeFrame_encodeRead (a : DeviceAddress) {reg : RegNum} (hr : regNamed reg = true) :
    decodeFrame (encodeRead a reg) = .ok (.frameRead a reg) := by
  simp only [decodeFrame, monitorFrame_encodeRead, setWidth_le_of_regNamed hr, setWidth_setWidth_regNum, if_true]

/-! ## The reference devices (R52, R64) -/

/-- A reference device, with what it stores for a value sent to it: IdealDevice the value (R52), CorruptingDevice `g` of it
(R64). -/
inductive StoresAs : Answer → (Byte → Byte) → Prop where
  | ideal : StoresAs .idealDevice id
  | corrupting : StoresAs .corruptingDevice corrupted

/-- R52, R101: a reference device's answer to a write frame arrives without failure, and the byte is stored. -/
theorem StoresAs.receive_answerWrite {ans : Answer} {g : Byte → Byte} (hg : StoresAs ans g) (a : DeviceAddress)
    (reg : RegNum) (v : Byte) (s : State) :
    receive (answerWrite ans a reg v s).1 (answerWrite ans a reg v s).2 = { s with
      rx := { b0 := anyByte s 0, b1 := anyByte s 1, b2 := anyByte s 2 }
      xrsp := none
      mem := devWrite s.mem a reg (g v)
      freeCount := s.freeCount + 3 } := by
  cases hg <;> simp [receive, answerWrite, accumulateOk]

/-- R52, R101: a reference device's answer to a read request arrives without failure, the register's value in byte 2. -/
theorem StoresAs.receive_answerRead {ans : Answer} {g : Byte → Byte} (hg : StoresAs ans g) (a : DeviceAddress)
    (reg : RegNum) (s : State) :
    receive (answerRead ans a reg s).1 (answerRead ans a reg s).2 = { s with
      rx := { b0 := anyByte s 0, b1 := anyByte s 1, b2 := devRead s.mem a reg }
      xrsp := none
      freeCount := s.freeCount + 2 } := by
  cases hg <;> simp [receive, answerRead, accumulateOk]

theorem StoresAs.answerRead_byte {ans : Answer} {g : Byte → Byte} (hg : StoresAs ans g) (a : DeviceAddress)
    (reg : RegNum) (s : State) : (answerRead ans a reg s).1.rx.b2 = devRead s.mem a reg := by
  cases hg <;> rfl

/-! ## One exchange: the transport answers, the engine takes its turn (R101; logs 1, 2) -/

/-- R12, R101: an answered frame completes with its answer. -/
theorem FrameAnswer.exec_answered {i : Instr} {f : Answer → State → Completion × State} (hf : FrameAnswer i f)
    {s : State} (hp : s.phase ≠ .idle) {a : Answer} (hx : s.xrsp = some a) :
    exec i s = .next (complete (f a s).1 (f a s).2) :=
  (hf.exec_eq s).trans (exchange_answered hp hx f)

theorem runSteps_succ {s t : State} (h : step s = .next t) (n : Nat) : runSteps (n + 1) s = runSteps n t := by
  simp only [runSteps, h]

theorem runSteps_add {m : Nat} {s t : State} (h : runSteps m s = .next t) (n : Nat) :
    runSteps (m + n) s = runSteps n t := by
  induction m generalizing s with
  | zero => obtain rfl := Host.Outcome.next.inj h; rw [Nat.zero_add]
  | succ m ih =>
    rw [Nat.add_right_comm]
    cases hs : step s with
    | next u => rw [runSteps_succ hs] at h ⊢; exact ih h
    | fault r => exact nomatch r
    | refused r => simp [runSteps, hs] at h

/-- One exchange in two steps: the answer comes, and in the engine's turn the outstanding frame completes with it. -/
theorem FrameAnswer.runSteps_exchange {i : Instr} {f : Answer → State → Completion × State} (hf : FrameAnswer i f)
    {s : State} {a : Answer} {rest : List EnvMove} (hp : s.phase ≠ .idle) (hr : s.resetIn = false) (hx : s.xrsp = none)
    (hd : decodeFrame s.tx = .ok i) (he : s.env = .answer a :: .letEngine :: rest) :
    runSteps 2 s = .next (complete (f a { s with xrsp := some a, env := rest }).1
      (f a { s with xrsp := some a, env := rest }).2) := by
  have hans : step s = .next { s with xrsp := some a, env := .letEngine :: rest } := by
    rw [step_of_envNext hr (by simp [envNext, he]), envStep_cons he]
    exact congrArg _ (answerRequest_outstanding (s := { s with env := .letEngine :: rest }) hp hx a)
  have hcomp := StepEffect.step_eq (.completes (s := { s with xrsp := some a, env := .letEngine :: rest })
    (engineNext_iff.2 ⟨hr, rfl⟩) hp rfl hd hf)
  rw [runSteps_succ hans, runSteps_succ hcomp]
  rfl

/-! ## A register write on a reference device (R104, R106) -/

/-- R104, R106: REGWR, and PORTWR for register 9, are accepted into the write phase with the register and the value latched. -/
theorem step_accepts_write {s : State} {reg : RegNum} {v : Byte} (hp : s.phase = .idle) (hv : s.cmdValid = true)
    (hn : engineNext s = true)
    (hd : decodeCmd s.cmdWord = .ok (.regwr reg v) ∨ (decodeCmd s.cmdWord = .ok (.portwr v) ∧ reg = 0x9#4)) :
    ∃ op, step s = .next (acceptCommand (latchAccess op reg v s.cmdCfg s.latch) false .wrW (takeTurn s)) := by
  obtain hd | ⟨hd, rfl⟩ := hd
  · exact ⟨0x3#4, StepEffect.step_eq (.accepts hn hp hv hd)⟩
  · exact ⟨0x5#4, StepEffect.step_eq (.accepts hn hp hv hd)⟩

/-- R101, R102: a reference device answers the read-back, and the command finishes with the byte the register holds. -/
theorem StoresAs.runSteps_readBack {ans : Answer} {g : Byte → Byte} (hg : StoresAs ans g) {s : State} {b : Byte}
    {rest : List EnvMove} (hp : s.phase = .wrRb) (hr : s.resetIn = false) (hx : s.xrsp = none)
    (hn : regNamed s.latch.reg = true) (htx : s.tx = encodeRead s.latch.addr s.latch.reg)
    (hb : devRead s.mem s.latch.addr s.latch.reg = b) (he : s.env = .answer ans :: .letEngine :: rest) :
    ∃ t, runSteps 2 s = .next t ∧ t.phase = .idle ∧ t.env = rest ∧
      t.resp = finishResp (verifiedFlag b s.latch.val) b s.accOk ∧ t.mem = s.mem := by
  subst hb
  have hread := (FrameAnswer.read s.latch.addr hn).runSteps_exchange (by simp [hp]) hr hx
    (htx ▸ decodeFrame_encodeRead _ hn) he
  rw [complete_wrRb (by simpa using hp), hg.receive_answerRead, hg.answerRead_byte] at hread
  exact ⟨_, hread, rfl, rfl, by simp, rfl⟩

/-- R101: the two exchanges of a register write on a reference device: the byte is stored, and read back. -/
theorem StoresAs.runSteps_write {ans : Answer} {g : Byte → Byte} (hg : StoresAs ans g) {s : State} {rest : List EnvMove}
    (hp : s.phase = .wrW) (hr : s.resetIn = false) (hx : s.xrsp = none) (hn : regNamed s.latch.reg = true)
    (htx : s.tx = encodeWrite s.latch.addr s.latch.reg s.latch.val)
    (he : s.env = .answer ans :: .letEngine :: .answer ans :: .letEngine :: rest) :
    ∃ t, runSteps 4 s = .next t ∧ t.phase = .idle ∧ t.env = rest ∧
      t.resp = finishResp (verifiedFlag (g s.latch.val) s.latch.val) (g s.latch.val) s.accOk ∧
      t.mem = devWrite s.mem s.latch.addr s.latch.reg (g s.latch.val) := by
  have hwrite := (FrameAnswer.write s.latch.addr s.latch.val hn).runSteps_exchange (by simp [hp]) hr hx
    (htx ▸ decodeFrame_encodeWrite _ hn _) he
  rw [complete_wrW (by simpa using hp), hg.receive_answerWrite] at hwrite
  rw [runSteps_add hwrite 2]
  exact hg.runSteps_readBack rfl hr rfl hn rfl (devRead_devWrite_same _ _ _ _) rfl

/-- R104, R106: a register write presented to a reference device, from accept to finish. -/
theorem StoresAs.runSteps_registerWrite {ans : Answer} {g : Byte → Byte} (hg : StoresAs ans g) {s : State} {reg : RegNum}
    {v : Byte} {rest : List EnvMove} (hp : s.phase = .idle) (hr : s.resetIn = false) (hv : s.cmdValid = true)
    (hx : s.xrsp = none) (hn : regNamed reg = true)
    (hd : decodeCmd s.cmdWord = .ok (.regwr reg v) ∨ (decodeCmd s.cmdWord = .ok (.portwr v) ∧ reg = 0x9#4))
    (he : s.env = .letEngine :: .answer ans :: .letEngine :: .answer ans :: .letEngine :: rest) :
    ∃ t, runSteps 5 s = .next t ∧ t.phase = .idle ∧ t.env = rest ∧
      t.resp = finishResp (verifiedFlag (g v) v) (g v) true ∧
      t.mem = devWrite s.mem s.cmdCfg.address reg (g v) := by
  have hturn : engineNext s = true := by simp [engineNext, envNext, hr, he]
  obtain ⟨op, hacc⟩ := step_accepts_write hp hv hturn hd
  rw [runSteps_succ hacc]
  exact hg.runSteps_write rfl hr hx hn rfl (congrArg List.tail he)

/-! ## Another command on the port (R59, R110) -/

/-- The same machine with other signals on the command port. -/
def withPort (v : Bool) (w : CmdWord) (c : DeviceConfig) (s : State) : State :=
  { s with cmdValid := v, cmdWord := w, cmdCfg := c }

theorem FrameAnswer.of_withPort {i : Instr} {f : Answer → State → Completion × State} (hf : FrameAnswer i f)
    (a : Answer) (v : Bool) (w : CmdWord) (c : DeviceConfig) (s : State) :
    f a (withPort v w c s) = ((f a s).1, withPort v w c (f a s).2) := by
  cases hf with
  | write address value hr => cases a <;> rfl
  | read address hr => cases a <;> rfl

/-- R110: a completion reads the latches, not the port. -/
theorem complete_withPort (r : Completion) (v : Bool) (w : CmdWord) (c : DeviceConfig) (s : State) :
    complete r (withPort v w c s) = withPort v w c (complete r s) := by
  obtain ⟨_, _, _, _, phase, _⟩ := s
  cases phase <;> rfl

end Sys2Proof.Machine

/-! ## The obligations of 20_memory.md -/

namespace Sys2Proof.Proofs

open Sys2Proof.Machine

/-- Settles O50. -/
theorem deviceReadsBackLastWrite : Obligations.DeviceReadsBackLastWrite :=
  ⟨devRead_devWrite_same, fun m _ _ _ _ v h => devRead_devWrite_other m v h, fun _ _ => rfl⟩

/-- Settles O24: such a register field names no register. -/
theorem frameBeyondRegistersRefused : Obligations.FrameBeyondRegistersRefused := by
  intro s a reg v h
  have hr : ¬ regNamed reg = true := by simp [regNamed_of_beyond h]
  exact ⟨if_neg hr, if_neg hr⟩

/-- Settles O46: of the moves only a completion and a turn that passes are a busy engine's, and neither reads the port. -/
theorem portReadAtAcceptOnly : Obligations.PortReadAtAcceptOnly := by
  intro s t v w c hn hp h
  cases StepEffect.of_step h with
  | reset hr => simp [engineNext, hr] at hn
  | envMoves hr he => simp [engineNext, he] at hn
  | accepts _ hi => contradiction
  | rejects _ hi => contradiction
  | passes _ hw =>
    have hx : s.xrsp = none := (hw.resolve_left fun hi => hp hi.1).2
    exact StepEffect.step_eq (.passes (s := withPort v w c s) hn (.inr ⟨hp, hx⟩))
  | @completes a i f _ _ hx hd hf =>
    have hc := StepEffect.step_eq (.completes (s := withPort v w c s) hn hp hx hd hf)
    have ha : f a (takeTurn (withPort v w c s)) = _ := hf.of_withPort a v w c (takeTurn s)
    rwa [ha, complete_withPort] at hc

/-- Settles O53: IdealDevice stores the value itself. -/
theorem registerWriteVerifiesOnIdealDevice : Obligations.RegisterWriteVerifiesOnIdealDevice := by
  intro s reg v rest hp hr hv hx hreg hd he
  obtain ⟨t, hrun, hidle, henv, hresp, hmem⟩ :=
    StoresAs.ideal.runSteps_registerWrite hp hr hv hx (regNamed_of_le hreg) hd he
  refine ⟨t, hrun, hidle, henv, ?_, ?_, fun a' r' h => ?_⟩
  · simp [hresp, finishResp, verifiedFlag]
  · simp [hmem]
  · rw [hmem, devRead_devWrite_other _ _ h]

/-- Settles O54: CorruptingDevice stores another byte than the value. -/
theorem registerWriteFailsOnCorruptingDevice : Obligations.RegisterWriteFailsOnCorruptingDevice := by
  intro s reg v rest hp hr hv hx hreg hd he
  obtain ⟨t, hrun, hidle, -, hresp, -⟩ :=
    StoresAs.corrupting.runSteps_registerWrite hp hr hv hx (regNamed_of_le hreg) hd he
  simp [hrun, hidle, hresp, finishResp, verifiedFlag, corrupted_ne]

/-- Settles O20: the answer arrives as `StoresAs.receive_answerWrite` says, and the phase says which exchange is next. -/
theorem frameWriteOnIdealDevice : Obligations.FrameWriteOnIdealDevice := by
  intro s a reg v hreg hx
  have hexec := fun hp : s.phase ≠ .idle => (FrameAnswer.write a v (regNamed_of_le hreg)).exec_answered hp hx
  refine ⟨fun hp => ?_, fun k hk hp => ?_, fun hp => ?_, devRead_devWrite_same _ _ _ _,
    fun a' r' h => devRead_devWrite_other _ v h⟩
  · rw [hexec (by simp [hp]), complete_wrW (by simpa using hp), StoresAs.ideal.receive_answerWrite]
    rfl
  · rw [hexec (by simp [hp]), complete_initW (by simpa using hp), StoresAs.ideal.receive_answerWrite, afterInitWrite,
      dif_pos hk]
    rfl
  · rw [hexec (by simp [hp]), complete_initW (by simpa using hp), StoresAs.ideal.receive_answerWrite]
    rfl

/-- Settles O21: the answer arrives as `StoresAs.receive_answerRead` says, and the phase says what the finish compares. -/
theorem frameReadOnIdealDevice : Obligations.FrameReadOnIdealDevice := by
  intro s a reg hreg hx
  have hexec := fun hp : s.phase ≠ .idle => (FrameAnswer.read a (regNamed_of_le hreg)).exec_answered hp hx
  refine ⟨fun hp => ?_, fun hp => ?_, fun hp => ?_⟩
  · rw [hexec (by simp [hp]), complete_rd (by simpa using hp), StoresAs.ideal.receive_answerRead]
    rfl
  · rw [hexec (by simp [hp]), complete_wrRb (by simpa using hp), StoresAs.ideal.receive_answerRead]
    rfl
  · rw [hexec (by simp [hp]), complete_initRb (by simpa using hp), StoresAs.ideal.receive_answerRead]
    rfl

end Sys2Proof.Proofs

/-! # The encodings (30_encoding.md): the decoders against the encoder, the side-band, the assembler, and the obligations -/

namespace Sys2Proof.Machine

/-! ## The fields of a command word (R65) -/

@[simp] theorem cmdOp_cmdOf (op : BitVec 4) (reg : RegNum) (data : Byte) : cmdOp (cmdOf op reg data) = op := by
  refine BitVec.eq_of_getLsbD_eq fun i hi => ?_
  interval_cases i <;> simp [cmdOp, cmdOf]

@[simp] theorem cmdReg_cmdOf (op : BitVec 4) (reg : RegNum) (data : Byte) : cmdReg (cmdOf op reg data) = reg := by
  refine BitVec.eq_of_getLsbD_eq fun i hi => ?_
  interval_cases i <;> simp [cmdReg, cmdOf]

@[simp] theorem cmdData_cmdOf (op : BitVec 4) (reg : RegNum) (data : Byte) : cmdData (cmdOf op reg data) = data := by
  refine BitVec.eq_of_getLsbD_eq fun i hi => ?_
  interval_cases i <;> simp [cmdData, cmdOf]

/-- R65: a command word is its three fields. -/
theorem cmdOf_fields (w : CmdWord) : cmdOf (cmdOp w) (cmdReg w) (cmdData w) = w := by
  refine BitVec.eq_of_getLsbD_eq fun i hi => ?_
  interval_cases i <;> simp [cmdOp, cmdReg, cmdData, cmdOf]

/-! ## The command decoder, opcode by opcode (R66 to R70) -/

/-- R66: the five opcodes, and those of no command. -/
theorem opcode_cases (op : BitVec 4) :
    op = 0x1#4 ∨ op = 0x2#4 ∨ op = 0x3#4 ∨ op = 0x4#4 ∨ op = 0x5#4 ∨ op = 0x0#4 ∨ 0x6#4 ≤ op := by
  revert op; decide

theorem decodeCmd_init {w : CmdWord} (h : cmdOp w = 0x1#4) :
    decodeCmd w = if cmdReg w = 0#4 ∧ cmdData w = 0#8 then .ok .init else .error .reservedField := by
  simp [decodeCmd, h]

theorem decodeCmd_regrd {w : CmdWord} (h : cmdOp w = 0x2#4) :
    decodeCmd w = if regNamed (cmdReg w) = false then .error .illegalRegister
      else if cmdData w = 0#8 then .ok (.regrd (cmdReg w)) else .error .reservedField := by
  simp [decodeCmd, h]

theorem decodeCmd_regwr {w : CmdWord} (h : cmdOp w = 0x3#4) :
    decodeCmd w = if regNamed (cmdReg w) = false then .error .illegalRegister
      else .ok (.regwr (cmdReg w) (cmdData w)) := by
  simp [decodeCmd, h]

theorem decodeCmd_portrd {w : CmdWord} (h : cmdOp w = 0x4#4) :
    decodeCmd w = if cmdReg w = 0#4 ∧ cmdData w = 0#8 then .ok .portrd else .error .reservedField := by
  simp [decodeCmd, h]

theorem decodeCmd_portwr {w : CmdWord} (h : cmdOp w = 0x5#4) :
    decodeCmd w = if cmdReg w = 0#4 then .ok (.portwr (cmdData w)) else .error .reservedField := by
  simp [decodeCmd, h]

theorem decodeCmd_illegalOpcode {w : CmdWord} (h : cmdOp w = 0x0#4 ∨ 0x6#4 ≤ cmdOp w) :
    decodeCmd w = .error .illegalOpcode := by
  have hop : ∀ op : BitVec 4, op = 0x0#4 ∨ 0x6#4 ≤ op →
      op ≠ 0x1#4 ∧ op ≠ 0x2#4 ∧ op ≠ 0x3#4 ∧ op ≠ 0x4#4 ∧ op ≠ 0x5#4 := by decide
  obtain ⟨h1, h2, h3, h4, h5⟩ := hop _ h
  simp only [decodeCmd, h1, h2, h3, h4, h5, if_false]

/-- R69: the branches of the decoder fix the fields the encoder writes. -/
theorem encode_of_decodeCmd {w : CmdWord} {i : Instr} (h : decodeCmd w = .ok i) : encode i = .cmd w := by
  have hw := cmdOf_fields w
  obtain ho | ho | ho | ho | ho | ho := opcode_cases (cmdOp w)
  · rw [decodeCmd_init ho] at h
    split_ifs at h with hz; cases h
    rw [ho, hz.1, hz.2] at hw
    exact congrArg CodeWord.cmd hw
  · rw [decodeCmd_regrd ho] at h
    split_ifs at h with hr hd; cases h
    rw [ho, hd] at hw
    exact congrArg CodeWord.cmd hw
  · rw [decodeCmd_regwr ho] at h
    split_ifs at h with hr; cases h
    rw [ho] at hw
    exact congrArg CodeWord.cmd hw
  · rw [decodeCmd_portrd ho] at h
    split_ifs at h with hz; cases h
    rw [ho, hz.1, hz.2] at hw
    exact congrArg CodeWord.cmd hw
  · rw [decodeCmd_portwr ho] at h
    split_ifs at h with hr; cases h
    rw [ho, hr] at hw
    exact congrArg CodeWord.cmd hw
  · rw [decodeCmd_illegalOpcode ho] at h
    cases h

/-- R70, R82: an instruction decodes from its own word and from no other. -/
theorem decodeCmd_eq_ok_iff {w : CmdWord} {i : Instr} :
    decodeCmd w = .ok i ↔ i.wellFormed = true ∧ encode i = .cmd w := by
  refine ⟨fun h => ⟨(decodeCmd_ok h).2, encode_of_decodeCmd h⟩, ?_⟩
  rintro ⟨hr, he⟩
  cases i with
  | frameWrite address reg value => cases he
  | frameRead address reg => cases he
  | init => cases he; simp [decodeCmd_init]
  | regrd reg => cases he; simpa [decodeCmd_regrd, Instr.wellFormed] using hr
  | regwr reg value => cases he; simpa [decodeCmd_regwr, Instr.wellFormed] using hr
  | portrd => cases he; simp [decodeCmd_portrd]
  | portwr value => cases he; simp [decodeCmd_portwr]

theorem regNamed_eq_false_iff {reg : RegNum} : regNamed reg = false ↔ 0xB#4 ≤ reg := by
  revert reg; decide

/-! ## The control byte and the frame decoder (R74, R83, R84) -/

/-- R83: OR-ing the write bit into the base changes nothing. -/
theorem encodeWrite_b0 (a : DeviceAddress) (reg : RegNum) (v : Byte) :
    (encodeWrite a reg v).b0 = 0x40#8 ||| (a.setWidth 8 <<< 1) :=
  BitVec.or_zero

/-- R83: OR-ing the read bit into the base changes nothing. -/
theorem encodeRead_b0 (a : DeviceAddress) (reg : RegNum) :
    (encodeRead a reg).b0 = 0x41#8 ||| (a.setWidth 8 <<< 1) := by
  have h : ∀ a : DeviceAddress, (encodeRead a 0).b0 = 0x41#8 ||| (a.setWidth 8 <<< 1) := by decide
  exact h a

/-- R83: a read's byte 0 is also the write base with the read bit. -/
theorem encodeRead_b0_of_readBit (a : DeviceAddress) (reg : RegNum) :
    (encodeRead a reg).b0 = 0x40#8 ||| (a.setWidth 8 <<< 1) ||| Config.readBit := by
  have h : ∀ a : DeviceAddress, (encodeRead a 0).b0 = 0x40#8 ||| (a.setWidth 8 <<< 1) ||| Config.readBit := by decide
  exact h a

/-- R74: a control byte with the pattern and a clear read/write bit is the encoder's for a write. -/
theorem controlByte_of_write {b : Byte} (hp : controlPattern b = 0b01000#5) (hrw : controlRead b = false) :
    0x40#8 ||| ((controlAddress b).setWidth 8 <<< 1) = b := by
  revert b; decide

/-- R74: a control byte with the pattern and a set read/write bit is the encoder's for a read. -/
theorem controlByte_of_read {b : Byte} (hp : controlPattern b = 0b01000#5) (hrw : controlRead b = true) :
    0x41#8 ||| ((controlAddress b).setWidth 8 <<< 1) = b := by
  revert b; decide

theorem controlByte_range {b : Byte} (hp : controlPattern b = 0b01000#5) : 0x40#8 ≤ b ∧ b ≤ 0x47#8 := by
  revert b; decide

theorem setWidth_setWidth_of_le {b : Byte} (h : b ≤ Config.maxReg.setWidth 8) : (b.setWidth 4).setWidth 8 = b := by
  revert b; decide

/-- R84, R77: what the fields of a frame that decodes say. -/
theorem decodeFrame_fields {f : Frame} {i : Instr} (h : decodeFrame f = .ok i) :
    controlPattern f.b0 = 0b01000#5 ∧ f.b1 ≤ Config.maxReg.setWidth 8 ∧
    ((controlRead f.b0 = true ∧ f.b2 = Config.readPlaceholder ∧
        i = .frameRead (controlAddress f.b0) (f.b1.setWidth 4)) ∨
      (controlRead f.b0 = false ∧ i = .frameWrite (controlAddress f.b0) (f.b1.setWidth 4) f.b2)) := by
  unfold decodeFrame monitorFrame at h
  split_ifs at h with hp
  simp only at h
  split_ifs at h with hr hrw hd
  · cases h; exact ⟨hp, hr, .inl ⟨hrw, hd, rfl⟩⟩
  · cases h; exact ⟨hp, hr, .inr ⟨Bool.eq_false_iff.2 hrw, rfl⟩⟩

/-- R77, R84: the control byte, the register byte and a read's placeholder are the encoder's. -/
theorem encode_of_decodeFrame {f : Frame} {i : Instr} (h : decodeFrame f = .ok i) : encode i = .wire f := by
  obtain ⟨hp, hr, ⟨hrw, hd, rfl⟩ | ⟨hrw, rfl⟩⟩ := decodeFrame_fields h
  · have hb0 := (encodeRead_b0 _ (f.b1.setWidth 4)).trans (controlByte_of_read hp hrw)
    exact congrArg CodeWord.wire (congr (congrArg₂ Frame.mk hb0 (setWidth_setWidth_of_le hr)) hd.symm)
  · have hb0 := (encodeWrite_b0 _ (f.b1.setWidth 4) f.b2).trans (controlByte_of_write hp hrw)
    exact congrArg CodeWord.wire (congrFun (congrArg₂ Frame.mk hb0 (setWidth_setWidth_of_le hr)) f.b2)

/-- R84 to R86: an instruction decodes from its own frame and from no other. -/
theorem decodeFrame_eq_ok_iff {f : Frame} {i : Instr} :
    decodeFrame f = .ok i ↔ i.wellFormed = true ∧ encode i = .wire f := by
  refine ⟨fun h => ⟨(decodeFrame_ok h).2, encode_of_decodeFrame h⟩, ?_⟩
  rintro ⟨hr, he⟩
  cases i with
  | frameWrite address reg value => cases he; exact decodeFrame_encodeWrite address hr value
  | frameRead address reg => cases he; exact decodeFrame_encodeRead address hr
  | _ => cases he

/-- R70, R84: an instruction decodes from its own encoding and from no other. -/
theorem decode_eq_ok_iff {c : CodeWord} {i : Instr} : decode c = .ok i ↔ i.wellFormed = true ∧ encode i = c := by
  cases c with
  | cmd w => exact decodeCmd_eq_ok_iff
  | wire f => exact decodeFrame_eq_ok_iff

/-- R25, R77: in every phase but IDLE the frame of the phase is one of the opcode table. -/
theorem decodeFrame_frameFor {p : Phase} {l : Latches} (hp : p ≠ .idle) (hr : regNamed l.reg = true) :
    ∃ f i, frameFor p l = some f ∧ decodeFrame f = .ok i := by
  cases p with
  | idle => contradiction
  | initW k => exact ⟨_, _, rfl, decodeFrame_encodeWrite _ (regNamed_number _) _⟩
  | initRb => exact ⟨_, _, rfl, decodeFrame_encodeRead _ (regNamed_number _)⟩
  | wrW => exact ⟨_, _, rfl, decodeFrame_encodeWrite _ hr _⟩
  | wrRb => exact ⟨_, _, rfl, decodeFrame_encodeRead _ hr⟩
  | rd => exact ⟨_, _, rfl, decodeFrame_encodeRead _ hr⟩

/-- R77: a request outstanding in a state of the invariant is a frame of the opcode table. -/
theorem EngineInv.decodeFrame_tx {s : State} (hi : EngineInv s) (hp : s.phase ≠ .idle) :
    ∃ i, decodeFrame s.tx = .ok i := by
  obtain ⟨f, i, hf, hd⟩ := decodeFrame_frameFor hp hi.regNamed
  exact ⟨i, hi.frame f hf ▸ hd⟩

/-! ## The side-band (R71) -/

theorem unpackCfg_packCfg (c : DeviceConfig) : unpackCfg (packCfg c) = c := by
  obtain ⟨address, ⟨direction, polarity, interruptEnable, defaultCompare, interruptControl, configuration, pullUp, port,
    outputLatch⟩⟩ := c
  simp only [unpackCfg, packCfg, DeviceConfig.mk.injEq, RegisterConfig.mk.injEq]
  refine ⟨BitVec.extractLsb'_append_eq_right, ?_, ?_, ?_, ?_, ?_, ?_, ?_, ?_, ?highest⟩
  all_goals repeat rw [BitVec.extractLsb'_append_eq_of_le (by decide)]
  case highest => exact BitVec.extractLsb'_eq_self
  all_goals exact BitVec.extractLsb'_append_eq_right

theorem packCfg_unpackCfg (w : BitVec 74) : packCfg (unpackCfg w) = w := by
  unfold packCfg unpackCfg
  simp only [BitVec.extractLsb'_append_extractLsb'_eq_extractLsb']
  exact BitVec.extractLsb'_eq_self

/-! ## The assembler (R79, R82) -/

/-- R82: a command assembles to the word it decodes from. -/
theorem commandWord_eq_some_iff {i : Instr} {w : CmdWord} : commandWord i = some w ↔ decodeCmd w = .ok i := by
  rw [decodeCmd_eq_ok_iff]
  unfold commandWord
  cases hw : i.wellFormed
  · simp
  · cases he : encode i <;> simp

theorem disassemble_of_ok {w : CmdWord} {i : Instr} (h : decodeCmd w = .ok i) : disassemble w = .command i := by
  simp [disassemble, h]

theorem disassemble_of_error {w : CmdWord} {e : DecodeError} (h : decodeCmd w = .error e) : disassemble w = .word w := by
  simp [disassemble, h]

/-- R80, R82: a register prints as its name. -/
theorem regText_number (r : RegisterId) : regText r.number = (registerName r).toList := by
  cases r <;> rfl

/-- R79: the text of a register parses back to its number. -/
theorem parseReg_regText {reg : RegNum} (hr : regNamed reg = true) : parseReg (regText reg) = some reg := by
  revert reg; decide

/-! ## Another latched opcode (R81) -/

/-- The same machine with another opcode latched. -/
def withOp (op : BitVec 4) (s : State) : State := { s with latch := { s.latch with op := op } }

theorem FrameAnswer.of_withOp {i : Instr} {f : Answer → State → Completion × State} (hf : FrameAnswer i f)
    (a : Answer) (op : BitVec 4) (s : State) : f a (withOp op s) = ((f a s).1, withOp op (f a s).2) := by
  cases hf with
  | write address value hr => cases a <;> rfl
  | read address hr => cases a <;> rfl

/-- R81: a completion reads the latched address, register, value and configuration, never the opcode. -/
theorem complete_withOp (c : Completion) (op : BitVec 4) (s : State) :
    complete c (withOp op s) = withOp op (complete c s) := by
  obtain ⟨_, _, _, _, phase, _⟩ := s
  cases phase <;> rfl

theorem answerRequest_withOp (a : Answer) (op : BitVec 4) (s : State) :
    answerRequest a (withOp op s) = withOp op (answerRequest a s) := by
  by_cases h : s.phase = .idle ∨ s.xrsp ≠ none
  · rw [answerRequest_ignored h, answerRequest_ignored (s := withOp op s) h]
  · obtain ⟨hp, hx⟩ := not_or.1 h
    rw [answerRequest_outstanding hp (not_not.1 hx), answerRequest_outstanding (s := withOp op s) hp (not_not.1 hx)]
    rfl

theorem envStep_withOp (op : BitVec 4) (s : State) : envStep (withOp op s) = withOp op (envStep s) := by
  cases he : s.env with
  | nil => simp [envStep, withOp, he]
  | cons m ms =>
    rw [envStep_cons he, envStep_cons (s := withOp op s) he]
    cases m with
    | answer a => exact answerRequest_withOp a op { s with env := ms }
    | _ => rfl

/-- R81: no move of a machine with a command in progress depends on the latched opcode. -/
theorem StepEffect.changeOp {s t : State} (h : StepEffect s t) (hp : s.phase ≠ .idle) (hr : s.resetIn = false)
    (op : BitVec 4) : StepEffect (withOp op s) (withOp op t) := by
  cases h with
  | reset hr' => rw [hr] at hr'; cases hr'
  | envMoves hr he => exact envStep_withOp op s ▸ .envMoves hr he
  | accepts _ hi => contradiction
  | rejects _ hi => contradiction
  | passes hn hw => exact .passes (s := withOp op s) hn hw
  | @completes a i f hn hp hx hd hf =>
    have hc := StepEffect.completes (s := withOp op s) hn hp hx hd hf
    have ha : f a (takeTurn (withOp op s)) = _ := hf.of_withOp a op (takeTurn s)
    rwa [ha, complete_withOp] at hc

end Sys2Proof.Machine

/-! ## The obligations of 30_encoding.md -/

namespace Sys2Proof.Proofs

open Sys2Proof.Machine

/-- Settles O2: the encoding decodes as `decode_eq_ok_iff` says, read from right to left. -/
theorem decodeEncodeAgree : Obligations.DecodeEncodeAgree :=
  fun _ hw => decode_eq_ok_iff.2 ⟨hw, rfl⟩

/-- Settles O3: the other direction of `decode_eq_ok_iff`. -/
theorem decodedInstructionReencodes : Obligations.DecodedInstructionReencodes :=
  fun _ _ => decode_eq_ok_iff.1

/-- Settles O4, opcode by opcode: each one's equation of the decoder names its causes. -/
theorem illegalWordsAreExactlyThese : Obligations.IllegalWordsAreExactlyThese := by
  intro w
  change (∃ e, decodeCmd w = .error e) ↔
    (cmdOp w = 0x0#4 ∨ 0x6#4 ≤ cmdOp w ∨ ((cmdOp w = 0x2#4 ∨ cmdOp w = 0x3#4) ∧ 0xB#4 ≤ cmdReg w) ∨
      ((cmdOp w = 0x1#4 ∨ cmdOp w = 0x4#4 ∨ cmdOp w = 0x5#4) ∧ cmdReg w ≠ 0x0#4) ∨
      ((cmdOp w = 0x1#4 ∨ cmdOp w = 0x2#4 ∨ cmdOp w = 0x4#4) ∧ cmdData w ≠ 0x00#8))
  rw [← regNamed_eq_false_iff]
  obtain ho | ho | ho | ho | ho | ho := opcode_cases (cmdOp w)
  · rw [decodeCmd_init ho]
    split_ifs with hz
    · simp [ho, hz]
    · simpa [ho] using not_and_or.1 hz
  · rw [decodeCmd_regrd ho]
    split_ifs with hr hd
    · simp [ho, hr]
    · simp [ho, hr, hd]
    · simp [ho, hr, hd]
  · rw [decodeCmd_regwr ho]
    split_ifs with hr <;> simp [ho, hr]
  · rw [decodeCmd_portrd ho]
    split_ifs with hz
    · simp [ho, hz]
    · simpa [ho] using not_and_or.1 hz
  · rw [decodeCmd_portwr ho]
    split_ifs with hr <;> simp [ho, hr]
  · simp [decodeCmd_illegalOpcode ho, ← or_assoc, ho]

/-- Settles O8: unpacking reads each field at the bits of R71, so the layout is the round trip field by field. -/
theorem sideBandLayout : Obligations.SideBandLayout := by
  refine ⟨fun c => ?_, packCfg_unpackCfg⟩
  have h := unpackCfg_packCfg c
  exact ⟨congrArg (·.address) h, congrArg (·.rc.direction) h, congrArg (·.rc.polarity) h,
    congrArg (·.rc.interruptEnable) h, congrArg (·.rc.defaultCompare) h, congrArg (·.rc.interruptControl) h,
    congrArg (·.rc.configuration) h, congrArg (·.rc.pullUp) h, congrArg (·.rc.port) h, congrArg (·.rc.outputLatch) h, h⟩

/-- Settles O19: the accepts latch the same but for the opcode, and no move of a busy machine reads it. -/
theorem portCommandsMatchRegisterCommands : Obligations.PortCommandsMatchRegisterCommands := by
  refine ⟨rfl, rfl, fun v => ⟨rfl, rfl⟩, fun s t h hp => ?_, fun s t v h hp => ?_, fun s t op hp hr h => ?_⟩
  · rw [exec_accepted rfl rfl hp] at h ⊢
    cases h; rfl
  · rw [exec_accepted rfl rfl hp] at h ⊢
    cases h; rfl
  · exact ((StepEffect.of_step h).changeOp hp hr op).step_eq

/-- Settles O38: the frame outstanding decodes, and the frames that decode are in the ranges of R77. -/
theorem onlyLegalFramesSent : Obligations.OnlyLegalFramesSent := by
  intro s hi hp
  obtain ⟨i, hd⟩ := hi.decodeFrame_tx hp
  obtain ⟨hpat, hr, hrw⟩ := decodeFrame_fields hd
  obtain ⟨hlo, hhi⟩ := controlByte_range hpat
  refine ⟨hlo, hhi, hr, fun hread => ?_⟩
  obtain ⟨-, hz, -⟩ | ⟨hwrite, -⟩ := hrw
  · exact hz
  · cases hwrite.symm.trans hread

/-- Settles O59: a command assembles to the word it decodes from (`commandWord_eq_some_iff`). -/
theorem assemblerWords : Obligations.AssemblerWords := by
  refine ⟨rfl, rfl, fun _ => rfl, fun r hr => ?_, fun r v hr => ?_,
    fun i w h => disassemble_of_ok (commandWord_eq_some_iff.1 h),
    regText_number .direction, regText_number .inputPolarity, regText_number .interruptEnable,
    regText_number .defaultCompare, regText_number .interruptControl, regText_number .configuration,
    regText_number .pullUp, regText_number .interruptFlag, regText_number .interruptCapture, regText_number .port,
    regText_number .outputLatch, fun w r h => ?_, fun w r v h => ?_, fun w v h => ?_, fun w h => ?_, fun w h => ?_,
    fun w e h => ?_, by decide, by decide, fun r hr => parseReg_regText (regNamed_of_le hr)⟩
  · exact (if_pos (regNamed_of_le hr)).trans (congrArg some BitVec.or_zero)
  · exact if_pos (regNamed_of_le hr)
  all_goals simp only [disassemblyText, h]

/-- Settles O60: a legal word is the word of its command, and an illegal one stands in a `.word` line. -/
theorem disassemblyReassembles : Obligations.DisassemblyReassembles := by
  intro w c
  cases hd : decodeCmd w with
  | ok i => simp [disassemble_of_ok hd, assembleFrom, commandWord_eq_some_iff.2 hd]
  | error e => simp [disassemble_of_error hd, assembleFrom]

/-- Settles O1: ten fixed words and frames. -/
theorem commandAndFrameWordsDecode : Obligations.CommandAndFrameWordsDecode := by
  unfold Obligations.CommandAndFrameWordsDecode
  decide

/-- Settles O7: bit 0 stands in the bases, so both forms of byte 0 are one. -/
theorem controlByteForms : Obligations.ControlByteForms :=
  ⟨rfl, rfl, rfl, rfl, fun a r v => ⟨encodeWrite_b0 a r v, rfl, encodeRead_b0 a r, rfl,
    encodeRead_b0_of_readBit a r⟩⟩

/-- Settles O9: the reader inverts the encoder, and it tests the pattern first. -/
theorem monitorReadsEncodedFrames : Obligations.MonitorReadsEncodedFrames :=
  ⟨monitorFrame_encodeWrite, monitorFrame_encodeRead, fun _ hp => if_neg hp⟩

end Sys2Proof.Proofs

/-! # The frame codec (40_frame_codec.md): the monitor's reading inverts the encoder, the lines of a PortValue, and the
obligations -/

namespace Sys2Proof.Machine

/-! ## Reading a frame back (R84, R88, R89) -/

/-- R84: the fields a bus monitor reads, and that the frame is valid. -/
theorem monitorFrame_fields {f : Frame} {v : FrameFields} (h : monitorFrame f = some v) :
    controlPattern f.b0 = 0b01000#5 ∧ controlRead f.b0 = v.read ∧ controlAddress f.b0 = v.address ∧
      f.b1 = v.reg ∧ f.b2 = v.data := by
  unfold monitorFrame at h
  split_ifs at h with hp
  cases h
  exact ⟨hp, rfl, rfl, rfl, rfl⟩

/-- R85, R86: byte 1 of a frame determines the register field. -/
theorem setWidth_regNum_inj {r r' : RegNum} (h : r.setWidth 8 = r'.setWidth 8) : r = r' :=
  Function.LeftInverse.injective (g := BitVec.setWidth 4) setWidth_setWidth_regNum h

/-- R89, first clause. -/
theorem encodeWrite_inj {a a' : DeviceAddress} {r r' : RegNum} {v v' : Byte}
    (h : encodeWrite a r v = encodeWrite a' r' v') : a = a' ∧ r = r' ∧ v = v' := by
  have hm := congrArg monitorFrame h
  rw [monitorFrame_encodeWrite, monitorFrame_encodeWrite] at hm
  injection hm with hf
  injection hf with _ ha hr hv
  exact ⟨ha, setWidth_regNum_inj hr, hv⟩

/-- R89, second clause. -/
theorem encodeRead_inj {a a' : DeviceAddress} {r r' : RegNum} (h : encodeRead a r = encodeRead a' r') :
    a = a' ∧ r = r' := by
  have hm := congrArg monitorFrame h
  rw [monitorFrame_encodeRead, monitorFrame_encodeRead] at hm
  injection hm with hf
  injection hf with _ ha hr _
  exact ⟨ha, setWidth_regNum_inj hr⟩

/-- R89: the read/write bit tells a write frame from a read frame. -/
theorem encodeWrite_ne_encodeRead (a a' : DeviceAddress) (r r' : RegNum) (v : Byte) :
    encodeWrite a r v ≠ encodeRead a' r' := by
  intro h
  have hm := congrArg monitorFrame h
  rw [monitorFrame_encodeWrite, monitorFrame_encodeRead] at hm
  injection hm with hf
  injection hf with hread
  cases hread

/-! ## The lines of a PortValue (R91) -/

theorem portSetBit_of_lt (p : Byte) {i : Nat} (b : Bool) (hi : i < 8) :
    portSetBit p i b = some ((p &&& ~~~(1#8 <<< i)) ||| ((BitVec.ofBool b).setWidth 8 <<< i)) := if_pos hi

/-- R91: the formula, line by line. The mask clears line `i` alone, and the shifted bit stands on line `i` alone. -/
theorem getLsbD_setBitFormula (p : Byte) (i : Nat) (b : Bool) {j : Nat} (hj : j < 8) :
    ((p &&& ~~~(1#8 <<< i)) ||| ((BitVec.ofBool b).setWidth 8 <<< i)).getLsbD j = if j = i then b else p.getLsbD j := by
  obtain hlt | rfl | hgt := Nat.lt_trichotomy j i
  · simp [hj, hlt, hlt.ne]
  · simp [hj]
  · simp [hj, hgt.ne', Nat.not_lt.2 hgt.le, Nat.sub_ne_zero_of_lt hgt]

/-- R91: the value PortSetBit answers is the one with line `i` at `b` and every other line of `p`. -/
theorem portSetBit_eq_some_iff {p q : Byte} {i : Nat} {b : Bool} (hi : i < 8) :
    portSetBit p i b = some q ↔ ∀ j, j < 8 → q.getLsbD j = if j = i then b else p.getLsbD j := by
  rw [portSetBit_of_lt p b hi, Option.some_inj]
  constructor
  · rintro rfl j hj
    exact getLsbD_setBitFormula p i b hj
  · intro hq
    exact BitVec.eq_of_getLsbD_eq fun j hj => (getLsbD_setBitFormula p i b hj).trans (hq j hj).symm

end Sys2Proof.Machine

/-! ## The obligations of 40_frame_codec.md -/

namespace Sys2Proof.Proofs

open Sys2Proof.Machine

/-- Settles O6: the monitor reads back what went into a frame. -/
theorem encoderInjective : Obligations.EncoderInjective :=
  ⟨fun _ _ _ _ _ _ => encodeWrite_inj, fun _ _ _ _ => encodeRead_inj, encodeWrite_ne_encodeRead⟩

/-- Settles O10: PortSetBit is known line by line (`portSetBit_eq_some_iff`). -/
theorem portValueView : Obligations.PortValueView := by
  refine ⟨fun _ _ hi => if_pos hi, fun _ _ hi => if_neg (Nat.not_lt.2 hi), by decide, by decide,
    fun p i b hi => ⟨portSetBit_of_lt p b hi, fun q hq => ?_⟩, fun p i hi => ?_, by decide, fun _ => ⟨rfl, rfl⟩⟩
  · have hline := (portSetBit_eq_some_iff hi).1 hq
    exact ⟨(hline i hi).trans (if_pos rfl), fun j hj hne => (hline j hj).trans (if_neg hne)⟩
  · refine (portSetBit_eq_some_iff hi).2 fun j _ => ?_
    split_ifs with hji
    · rw [hji]
    · rfl

/-- Settles O5: laws 1 to 7 are the fields the monitor reads from the two frames. -/
theorem encoderLaws : Obligations.EncoderLaws := by
  intro address reg v _
  obtain ⟨hwPattern, hwRead, hwAddress, hwReg, hwData⟩ := monitorFrame_fields (monitorFrame_encodeWrite address reg v)
  obtain ⟨hrPattern, hrRead, -, -, hrData⟩ := monitorFrame_fields (monitorFrame_encodeRead address reg)
  exact ⟨hwAddress, hwRead, hwReg, hwData, hrRead, hrData, hwPattern, hrPattern⟩

end Sys2Proof.Proofs

/-! # The register operations (41_register_ops.md): accept, completion and whole commands, and the obligations -/

namespace Sys2Proof.Machine

/-! ## What a host command can do (R100, R139, R167) -/

/-- R139, R67: in IDLE a host command whose register field names no register is rejected. -/
theorem exec_rejected {i : Instr} {s : State} (hc : isCommand i = true) (hw : i.wellFormed = false)
    (hp : s.phase = .idle) : exec i s = .next (raiseIllegal s) := by
  cases i with
  | regrd reg => exact (if_neg (Bool.eq_false_iff.1 hw)).trans (whenReady_idle hp _)
  | regwr reg value => exact (if_neg (Bool.eq_false_iff.1 hw)).trans (whenReady_idle hp _)
  | frameWrite address reg value => cases hc
  | frameRead address reg => cases hc
  | _ => cases hw

/-- Everything a host command can do: it is held, accepted, or rejected. -/
theorem exec_command_cases {i : Instr} {s t : State} (hc : isCommand i = true) (h : exec i s = .next t) :
    t = s ∨ (i.wellFormed = true ∧ t = acceptInstr i s) ∨ (i.wellFormed = false ∧ t = raiseIllegal s) := by
  by_cases hp : s.phase = .idle
  · cases hw : i.wellFormed with
    | true => exact .inr (.inl ⟨rfl, Host.Outcome.next.inj (h.symm.trans (exec_accepted hc hw hp))⟩)
    | false => exact .inr (.inr ⟨rfl, Host.Outcome.next.inj (h.symm.trans (exec_rejected hc hw hp))⟩)
  · exact .inl (Host.Outcome.next.inj (h.symm.trans (exec_held hc hp)))

/-- R127, R39: INIT never sets the mark. -/
@[simp] theorem contractMark_init (a : DeviceAddress) (s : State) : contractMark true a s = s.contractViolated := by
  simp [contractMark]

/-- R26: only INIT loads `L.rc`. -/
theorem acceptLatches_rc {i : Instr} (hi : i ≠ .init) (c : DeviceConfig) (l : Latches) :
    (acceptLatches i c l).rc = l.rc := by
  cases i with
  | init => contradiction
  | _ => rfl

/-! ## What a completion does to each field (R101, R102) -/

@[simp] theorem complete_cmdValid (c : Completion) (s : State) : (complete c s).cmdValid = s.cmdValid := by
  unfold complete advance; split <;> rfl
@[simp] theorem complete_cmdWord (c : Completion) (s : State) : (complete c s).cmdWord = s.cmdWord := by
  unfold complete advance; split <;> rfl
@[simp] theorem complete_cmdCfg (c : Completion) (s : State) : (complete c s).cmdCfg = s.cmdCfg := by
  unfold complete advance; split <;> rfl
@[simp] theorem complete_resetIn (c : Completion) (s : State) : (complete c s).resetIn = s.resetIn := by
  unfold complete advance; split <;> rfl
@[simp] theorem complete_latch (c : Completion) (s : State) : (complete c s).latch = s.latch := by
  unfold complete advance; split <;> rfl
@[simp] theorem complete_accOk (c : Completion) (s : State) : (complete c s).accOk = accumulateOk s.accOk c.fail := by
  unfold complete advance; split <;> rfl
@[simp] theorem complete_xrsp (c : Completion) (s : State) : (complete c s).xrsp = none := by
  unfold complete advance; split <;> rfl
@[simp] theorem complete_mem (c : Completion) (s : State) : (complete c s).mem = s.mem := by
  unfold complete advance; split <;> rfl
@[simp] theorem complete_everAccepted (c : Completion) (s : State) : (complete c s).everAccepted = s.everAccepted := by
  unfold complete advance; split <;> rfl
@[simp] theorem complete_env (c : Completion) (s : State) : (complete c s).env = s.env := by
  unfold complete advance; split <;> rfl

/-- R108: the phase a completion leads to. -/
def phaseAfter : Phase → Phase
  | .idle => .idle
  | .initW k => afterInitWrite k
  | .initRb => .idle
  | .wrW => .wrRb
  | .wrRb => .idle
  | .rd => .idle

@[simp] theorem complete_phase (c : Completion) (s : State) : (complete c s).phase = phaseAfter s.phase := by
  cases hp : s.phase with
  | idle => rw [complete_idle hp]; exact hp
  | initW k => rw [complete_initW hp]; rfl
  | initRb => rw [complete_initRb hp]; rfl
  | wrW => rw [complete_wrW hp]; rfl
  | wrRb => rw [complete_wrRb hp]; rfl
  | rd => rw [complete_rd hp]; rfl

theorem phaseAfter_initW_of_lt {k : Fin 9} (hk : k.val < 8) : phaseAfter (.initW k) = .initW ⟨k.val + 1, by omega⟩ :=
  dif_pos hk

theorem phaseAfter_initW_of_not_lt {k : Fin 9} (hk : ¬ k.val < 8) : phaseAfter (.initW k) = .initRb := dif_neg hk

/-- R125: `dev_state` moves at INIT's finish only. -/
theorem complete_devState_of_ne {s : State} (hp : s.phase ≠ .initRb) (c : Completion) :
    (complete c s).devState = s.devState := by
  unfold complete advance
  split
  case h_3 h => exact absurd h hp
  all_goals rfl

/-- R125: it moves for the latched device only. -/
theorem devStateAt_complete_of_ne {s : State} {d : DeviceAddress} (hd : d ≠ s.latch.addr) (c : Completion) :
    devStateAt (complete c s) d = devStateAt s d := by
  by_cases hp : s.phase = .initRb
  · have hne : s.latch.addr.toNat ≠ d.toNat := fun h => hd (BitVec.eq_of_toNat_eq h.symm)
    simp [devStateAt, complete_initRb hp, Vector.getElem_set_ne _ _ hne]
  · simp only [devStateAt, complete_devState_of_ne hp]

/-! ## What the exchange of a frame can do (R101, R147, R161) -/

/-- U11: a wire frame that is not refused is for a register there is. -/
theorem wellFormed_of_exec_frame {i : Instr} {s t : State} (hc : isCommand i = false) (h : exec i s = .next t) :
    i.wellFormed = true := by
  by_contra hw
  cases i with
  | frameWrite address reg value => exact nomatch (if_neg hw).symm.trans h
  | frameRead address reg => exact nomatch (if_neg hw).symm.trans h
  | _ => cases hc

/-- Everything the exchange of a frame can do: an answer is dropped in IDLE, the engine waits for one, or it completes. -/
theorem FrameAnswer.exec_cases {i : Instr} {f : Answer → State → Completion × State} (hf : FrameAnswer i f) {s t : State}
    (h : exec i s = .next t) :
    (s.phase = .idle ∧ t = { s with xrsp := none }) ∨ (s.xrsp = none ∧ t = s) ∨
      ∃ a, s.xrsp = some a ∧ t = complete (f a s).1 (f a s).2 := by
  rw [hf.exec_eq] at h
  by_cases hp : s.phase = .idle
  · exact .inl ⟨hp, Host.Outcome.next.inj (h.symm.trans (exchange_idle hp f))⟩
  · cases hx : s.xrsp with
    | none => exact .inr (.inl ⟨rfl, Host.Outcome.next.inj (h.symm.trans (exchange_waiting hp hx f))⟩)
    | some a => exact .inr (.inr ⟨a, rfl, Host.Outcome.next.inj (h.symm.trans (exchange_answered hp hx f))⟩)

/-- With an answer there, the expanders after the exchange are as before (in IDLE) or as the answer says. -/
theorem FrameAnswer.exec_mem {i : Instr} {f : Answer → State → Completion × State} (hf : FrameAnswer i f) {s t : State}
    (h : exec i s = .next t) {a : Answer} (hx : s.xrsp = some a) : t.mem = s.mem ∨ t.mem = (f a s).2.mem := by
  obtain ⟨-, rfl⟩ | ⟨-, rfl⟩ | ⟨b, hb, rfl⟩ := hf.exec_cases h
  · exact .inl rfl
  · exact .inl rfl
  · obtain rfl := Option.some.inj (hx.symm.trans hb)
    exact .inr (complete_mem _ _)

theorem StoresAs.answerWrite_mem {ans : Answer} {g : Byte → Byte} (hg : StoresAs ans g) (a : DeviceAddress)
    (reg : RegNum) (v : Byte) (s : State) : (answerWrite ans a reg v s).2.mem = devWrite s.mem a reg (g v) := by
  cases hg <;> rfl

theorem StoresAs.answerRead_mem {ans : Answer} {g : Byte → Byte} (hg : StoresAs ans g) (a : DeviceAddress)
    (reg : RegNum) (s : State) : (answerRead ans a reg s).2.mem = s.mem := by
  cases hg <;> rfl

theorem StoresAs.exists_of_reference {x : Option Answer} (h : x = some .idealDevice ∨ x = some .corruptingDevice) :
    ∃ ans g, x = some ans ∧ StoresAs ans g := by
  obtain rfl | rfl := h
  · exact ⟨_, _, rfl, .ideal⟩
  · exact ⟨_, _, rfl, .corrupting⟩

/-! ## Any completion with any changes (log 9) -/

/-- What such an answer does does not depend on the frame. -/
theorem FrameAnswer.general_eq {i : Instr} {f : Answer → State → Completion × State} (hf : FrameAnswer i f)
    (c : Completion) (changes : List DeviceChange) (s : State) :
    f (.general c changes) s = (c, { s with mem := applyChanges changes s.mem }) := by
  cases hf <;> rfl

theorem FrameAnswer.exec_general {i : Instr} {f : Answer → State → Completion × State} (hf : FrameAnswer i f)
    {s : State} {c : Completion} {changes : List DeviceChange} (hp : s.phase ≠ .idle)
    (hx : s.xrsp = some (.general c changes)) :
    exec i s = .next (complete c { s with mem := applyChanges changes s.mem }) := by
  rw [hf.exec_answered hp hx, hf.general_eq]

/-- R101: a completion uses up the answer, whatever it was. -/
theorem complete_withAnswer (c : Completion) (x : Option Answer) (s : State) :
    complete c { s with xrsp := x } = complete c s := by
  obtain ⟨_, _, _, _, phase, _⟩ := s
  cases phase <;> rfl

/-- One exchange in two steps, answered with any completion and any changes. -/
theorem runSteps_exchange_general {i : Instr} {s : State} {c : Completion} {changes : List DeviceChange} {rest : List EnvMove}
    (hp : s.phase ≠ .idle) (hr : s.resetIn = false) (hx : s.xrsp = none) (hd : decodeFrame s.tx = .ok i)
    (he : s.env = .answer (.general c changes) :: .letEngine :: rest) :
    runSteps 2 s = .next (complete c { s with env := rest, mem := applyChanges changes s.mem }) := by
  obtain ⟨hc, hw⟩ := decodeFrame_ok hd
  obtain ⟨f, hf⟩ := FrameAnswer.exists_of_wellFormed hc hw
  rw [hf.runSteps_exchange hp hr hx hd he, hf.general_eq]
  exact congrArg _ (complete_withAnswer c _ { s with env := rest, mem := applyChanges changes s.mem })

/-! ## A step of the engine, by the word or the frame it acts on -/

/-- R103, R105: REGRD, and PORTRD for register 9, are accepted into the read phase with the register latched. -/
theorem step_accepts_read {s : State} {reg : RegNum} (hp : s.phase = .idle) (hv : s.cmdValid = true)
    (hn : engineNext s = true)
    (hd : decodeCmd s.cmdWord = .ok (.regrd reg) ∨ (decodeCmd s.cmdWord = .ok .portrd ∧ reg = 0x9#4)) :
    ∃ op, step s = .next (acceptCommand (latchAccess op reg 0x00#8 s.cmdCfg s.latch) false .rd (takeTurn s)) := by
  obtain hd | ⟨hd, rfl⟩ := hd
  · exact ⟨0x2#4, StepEffect.step_eq (.accepts hn hp hv hd)⟩
  · exact ⟨0x4#4, StepEffect.step_eq (.accepts hn hp hv hd)⟩

theorem step_of_runInstr {s : State} {i : Instr} (h : turn s = .runInstr i) : step s = exec i (takeTurn s) := by
  rw [step, h]

theorem runSteps_one {s t : State} (h : step s = .next t) : runSteps 1 s = .next t := runSteps_succ h 0

/-! ## How many exchanges are left (R107) -/

theorem exchangesLeft_eq_zero {p : Phase} : exchangesLeft p = 0 ↔ p = .idle := by
  cases p with
  | initW k => simp [exchangesLeft]; omega
  | _ => simp [exchangesLeft]

/-- R107: each completion is one exchange fewer. -/
theorem exchangesLeft_phaseAfter {p : Phase} (hp : p ≠ .idle) : exchangesLeft (phaseAfter p) + 1 = exchangesLeft p := by
  cases p with
  | idle => contradiction
  | initW k => revert k; decide
  | _ => rfl

theorem exchangesLeft_firstPhase {i : Instr} (hw : i.wellFormed = true) :
    exchangesLeft (firstPhase i) = exchangesOf i := by
  cases i with
  | regrd reg => exact (if_pos hw).symm
  | regwr reg value => exact (if_pos hw).symm
  | _ => rfl

/-- One exchange in two steps, whatever the answer: some completion, with the expanders' registers in canonical form. -/
theorem EngineInv.runSteps_exchange {s : State} (hi : EngineInv s) {a : Answer} {rest : List EnvMove}
    (hp : s.phase ≠ .idle) (hr : s.resetIn = false) (hx : s.xrsp = none) (he : s.env = .answer a :: .letEngine :: rest) :
    ∃ c m n, m.wf ∧ runSteps 2 s = .next (complete c { s with env := rest, mem := m, freeCount := n }) := by
  obtain ⟨i, hd⟩ := hi.decodeFrame_tx hp
  obtain ⟨hc, hw⟩ := decodeFrame_ok hd
  obtain ⟨f, hf⟩ := FrameAnswer.exists_of_wellFormed hc hw
  obtain ⟨m, n, hstate, hm⟩ := hf.state_eq a { s with xrsp := some a, env := rest }
  have hrun := hf.runSteps_exchange hp hr hx hd he
  rw [hstate] at hrun
  exact ⟨_, m, n, hm hi.memWf,
    hrun.trans (congrArg _ (complete_withAnswer _ _ { s with env := rest, mem := m, freeCount := n }))⟩

/-- A command in progress, or just finished, with the answers to the exchanges it has left, and no others, to come. -/
structure AnswersToCome (answers : List Answer) (rest : List EnvMove) (s : State) : Prop where
  inv : EngineInv s
  noReset : s.resetIn = false
  unanswered : s.xrsp = none
  finished : s.phase = .idle → s.resp.valid = true
  left : exchangesLeft s.phase = answers.length
  moves : s.env = answers.flatMap exchangeMoves ++ rest

theorem AnswersToCome.busy {a : Answer} {answers : List Answer} {rest : List EnvMove} {s : State}
    (h : AnswersToCome (a :: answers) rest s) : s.phase ≠ .idle :=
  fun hp => nomatch (exchangesLeft_eq_zero.2 hp).symm.trans h.left

/-- One exchange: the transport's move leaves the phase, and the engine's leaves one answer fewer to come. -/
theorem AnswersToCome.exchange {a : Answer} {answers : List Answer} {rest : List EnvMove} {s : State}
    (h : AnswersToCome (a :: answers) rest s) :
    ∃ u t, step s = .next u ∧ u.phase = s.phase ∧ runSteps 2 s = .next t ∧ AnswersToCome answers rest t := by
  have hp := h.busy
  have hans := step_of_envNext h.noReset (by simp [envNext, h.moves, exchangeMoves])
  obtain ⟨c, m, n, hm, hrun⟩ := h.inv.runSteps_exchange hp h.noReset h.unanswered h.moves
  have hinv : EngineInv { s with env := answers.flatMap exchangeMoves ++ rest, mem := m, freeCount := n } :=
    h.inv.congr hm (fun hi => absurd hi hp) rfl rfl rfl rfl rfl rfl rfl rfl
  refine ⟨_, _, hans, envStep_phase s, hrun, hinv.after_completion hp _, ?_, complete_xrsp _ _, fun hi => ?_, ?_, ?_⟩
  · exact (complete_resetIn _ _).trans h.noReset
  · obtain ⟨verified, hresp, -⟩ := complete_resp_of_idle (by exact hp) hi
    rw [hresp]; rfl
  · rw [complete_phase]
    exact Nat.succ.inj ((exchangesLeft_phaseAfter hp).trans h.left)
  · exact complete_env _ _

/-- R107: two steps for each answer to come, and the command has finished; until then it is busy. -/
theorem AnswersToCome.runSteps_finish {answers : List Answer} {rest : List EnvMove} {s : State}
    (h : AnswersToCome answers rest s) :
    (∃ t, runSteps (2 * answers.length) s = .next t ∧ t.phase = .idle ∧ t.resp.valid = true ∧ t.env = rest) ∧
    ∀ n t, n < 2 * answers.length → runSteps n s = .next t → t.phase ≠ .idle := by
  induction answers generalizing s with
  | nil =>
    have hp : s.phase = .idle := exchangesLeft_eq_zero.1 h.left
    exact ⟨⟨s, rfl, hp, h.finished hp, h.moves⟩, fun n t hn => absurd hn n.not_lt_zero⟩
  | cons a answers ih =>
    obtain ⟨u, t, hu, hup, ht, hrest⟩ := h.exchange
    obtain ⟨hfinish, hbusy⟩ := ih hrest
    have hskip := runSteps_add ht
    refine ⟨?_, fun n v hn hv => ?_⟩
    · rw [List.length_cons, Nat.mul_succ, Nat.add_comm, hskip]
      exact hfinish
    · match n with
      | 0 =>
        obtain rfl := Host.Outcome.next.inj hv
        exact h.busy
      | 1 =>
        obtain rfl := Host.Outcome.next.inj ((runSteps_one hu).symm.trans hv)
        exact hup ▸ h.busy
      | n + 2 =>
        rw [Nat.add_comm, hskip] at hv
        exact hbusy n v (by rw [List.length_cons] at hn; omega) hv

/-- R100, R107: the accept of a command leaves its exchanges to come. -/
theorem AnswersToCome.of_accept {s : State} {i : Instr} {answers : List Answer} {rest : List EnvMove} (hi : EngineInv s)
    (hp : s.phase = .idle) (hr : s.resetIn = false) (hd : decodeCmd s.cmdWord = .ok i)
    (hlen : answers.length = exchangesOf i) (he : s.env = .letEngine :: answers.flatMap exchangeMoves ++ rest) :
    AnswersToCome answers rest (acceptInstr i (takeTurn s)) := by
  obtain ⟨hc, hw⟩ := decodeCmd_ok hd
  exact ⟨hi.after_takeTurn.after_accept hc hw, hr, hi.noStrayAnswer hp, fun h => absurd h (firstPhase_ne_idle hc),
    (exchangesLeft_firstPhase hw).trans hlen.symm, congrArg List.tail he⟩

end Sys2Proof.Machine

/-! ## The obligations of 41_register_ops.md -/

namespace Sys2Proof.Proofs

open Sys2Proof.Machine

/-- Settles O22: such an answer completes either frame alike, and each phase has its equation of `complete`. -/
theorem completionFollowsPhase : Obligations.CompletionFollowsPhase := by
  intro s i c changes hi hp hx
  obtain ⟨f, hf⟩ : ∃ f, FrameAnswer i f := by
    obtain ⟨a, reg, v, rfl, hreg⟩ | ⟨a, reg, rfl, hreg⟩ := hi
    · exact ⟨_, .write a v (regNamed_of_le hreg)⟩
    · exact ⟨_, .read a (regNamed_of_le hreg)⟩
  refine ⟨_, hf.exec_general hp hx, complete_accOk _ _, complete_latch _ _, complete_mem _ _, fun k hk => ?_,
    fun hk => ?_, fun hk => ?_, fun hk => ?_, fun hk => ?_⟩
  · rw [complete_initW (by exact hk)]
    exact ⟨rfl, rfl, phaseAfter_initW_of_lt, fun h => phaseAfter_initW_of_not_lt (by omega)⟩
  · rw [complete_wrW (by exact hk)]; exact ⟨rfl, rfl, rfl⟩
  · rw [complete_rd (by exact hk)]; exact ⟨rfl, rfl, rfl, rfl⟩
  · rw [complete_wrRb (by exact hk)]; exact ⟨rfl, rfl, rfl, rfl⟩
  · rw [complete_initRb (by exact hk)]; exact ⟨rfl, rfl, rfl, rfl⟩

/-- Settles O26: a command is held, accepted or rejected. -/
theorem commandFrame : Obligations.CommandFrame := by
  intro i s t hc h
  obtain rfl | ⟨-, rfl⟩ | ⟨hw, rfl⟩ := exec_command_cases hc h
  · exact ⟨fun _ _ => rfl, rfl, rfl, rfl, rfl, rfl, rfl, rfl, fun _ => rfl, fun _ => ⟨rfl, rfl⟩, fun _ => .inl rfl⟩
  · refine ⟨fun _ _ => rfl, rfl, rfl, rfl, rfl, rfl, rfl, rfl, fun hi => acceptLatches_rc hi _ _, fun hi => ?_,
      fun _ => .inr rfl⟩
    subst hi
    exact ⟨rfl, contractMark_init _ _⟩
  · exact ⟨fun _ _ => rfl, rfl, rfl, rfl, rfl, rfl, rfl, rfl, fun _ => rfl, fun _ => ⟨rfl, rfl⟩, by simp [hw]⟩

/-- Settles O27: the fields are those a completion leaves alone; the expanders are as the reference device's answer says. -/
theorem exchangeFrame : Obligations.ExchangeFrame := by
  intro s t a reg v
  have hwrite := fun h : exec (.frameWrite a reg v) s = .next t =>
    FrameAnswer.write a v (wellFormed_of_exec_frame rfl h)
  have hread := fun h : exec (.frameRead a reg) s = .next t => FrameAnswer.read a (wellFormed_of_exec_frame rfl h)
  refine ⟨fun h => ?_, fun h href a' r' => ?_, fun h href a' r' hne => ?_⟩
  · obtain ⟨i, f, hf, h⟩ : ∃ i f, FrameAnswer i f ∧ exec i s = .next t :=
      h.elim (fun h => ⟨_, _, hwrite h, h⟩) fun h => ⟨_, _, hread h, h⟩
    obtain ⟨-, rfl⟩ | ⟨-, rfl⟩ | ⟨b, -, rfl⟩ := hf.exec_cases h
    · exact ⟨rfl, rfl, rfl, rfl, rfl, rfl, rfl, rfl, fun _ => rfl, fun _ _ => rfl⟩
    · exact ⟨rfl, rfl, rfl, rfl, rfl, rfl, rfl, rfl, fun _ => rfl, fun _ _ => rfl⟩
    · obtain ⟨m, n, he, -⟩ := hf.state_eq b s
      rw [he]
      refine ⟨?_, ?_, ?_, ?_, ?_, ?_, ?_, ?_, fun hp => complete_devState_of_ne (by exact hp) _,
        fun d hd => devStateAt_complete_of_ne (by exact hd) _⟩ <;> simp
  · obtain ⟨ans, g, hx, hg⟩ := StoresAs.exists_of_reference href
    obtain hm | hm := (hread h).exec_mem h hx
    · rw [hm]
    · rw [hm, hg.answerRead_mem]
  · obtain ⟨ans, g, hx, hg⟩ := StoresAs.exists_of_reference href
    obtain hm | hm := (hwrite h).exec_mem h hx
    · rw [hm]
    · rw [hm, hg.answerWrite_mem, devRead_devWrite_other _ _ hne]

/-- Settles O39, move by move (`StepEffect`): an accept starts in `firstPhase`, a completion leads to `phaseAfter`. -/
theorem phaseTransitions : Obligations.PhaseTransitions := by
  refine ⟨fun s t h => ?_, fun p => ?_⟩
  · cases StepEffect.of_step h with
    | reset hr => simp [hr, engineNext]
    | envMoves hr he => simp [hr, he, engineNext]
    | @accepts i hn hp hv hd =>
      have hr := (engineNext_iff.1 hn).1
      have hphase : (acceptInstr i (takeTurn s)).phase = firstPhase i := rfl
      simp only [hphase, hn, hr, hp, hv, hd]
      cases i <;> simp [firstPhase]
    | rejects hn hp hv hd => simp [hn, hp, hv, hd, (engineNext_iff.1 hn).1]
    | passes hn hw =>
      have hr := (engineNext_iff.1 hn).1
      obtain ⟨hp, hv⟩ | ⟨hp, hx⟩ := hw
      · simp [hn, hr, hp, hv]
      · simp [hn, hr, hp, hx]
    | @completes a i f hn hp hx hd hf =>
      obtain ⟨m, n, he, -⟩ := hf.state_eq a (takeTurn s)
      have hphase : (complete (f a (takeTurn s)).1 (f a (takeTurn s)).2).phase = phaseAfter s.phase := by
        rw [he, complete_phase]; rfl
      simp only [hphase, (engineNext_iff.1 hn).1, hn, hx]
      refine ⟨nofun, nofun, fun _ hi => absurd hi hp, fun _ hi => absurd hi hp, nofun, fun _ _ =>
        ⟨fun k hk hq => hq ▸ phaseAfter_initW_of_lt hk, ?_, ?_, ?_, ?_, ?_⟩⟩ <;> exact fun hq => hq ▸ rfl
  · cases p with
    | initW k => revert k; decide
    | _ => decide

/-- Settles O51: the accept, then one exchange that ends in the phase RD's finish. -/
theorem registerReadRuns : Obligations.RegisterReadRuns := by
  intro s reg c changes rest hp hr hv hx hreg hd he
  obtain ⟨op, hacc⟩ := step_accepts_read hp hv (by simp [engineNext, envNext, hr, he]) hd
  refine ⟨⟨_, runSteps_one hacc, rfl, rfl⟩, ?_⟩
  have hread := runSteps_exchange_general (s := acceptCommand (latchAccess op reg 0x00#8 s.cmdCfg s.latch) false .rd (takeTurn s))
    nofun hr hx (decodeFrame_encodeRead s.cmdCfg.address (regNamed_of_le hreg)) (congrArg List.tail he)
  rw [complete_rd rfl] at hread
  exact ⟨_, (runSteps_succ hacc 2).trans hread, rfl, rfl, rfl, rfl⟩

/-- Settles O52: the accept, the write's exchange whatever its status, and the read-back's. -/
theorem registerWriteRuns : Obligations.RegisterWriteRuns := by
  intro s reg v c1 c2 ch1 ch2 rest hp hr hv hx hreg hd he
  have hn := regNamed_of_le hreg
  obtain ⟨op, hacc⟩ := step_accepts_write hp hv (by simp [engineNext, envNext, hr, he]) hd
  have hwrite := runSteps_exchange_general (s := acceptCommand (latchAccess op reg v s.cmdCfg s.latch) false .wrW (takeTurn s))
    nofun hr hx (decodeFrame_encodeWrite s.cmdCfg.address hn v) (congrArg List.tail he)
  rw [complete_wrW rfl] at hwrite
  have h3 := (runSteps_succ hacc 2).trans hwrite
  exact ⟨⟨_, runSteps_one hacc, rfl, rfl⟩, ⟨_, h3, rfl, rfl⟩, _, (runSteps_add h3 2).trans
    (runSteps_exchange_general nofun hr rfl (decodeFrame_encodeRead s.cmdCfg.address hn) rfl), rfl, rfl, rfl, rfl⟩

/-- Settles O58: the exchanges left fall by one with each answer (`AnswersToCome`). -/
theorem commandsTakeFixedExchanges : Obligations.CommandsTakeFixedExchanges := by
  refine ⟨fun s i answers rest hi hp hr hv hd hlen he => ?_, fun s e hn hp hv hd => ?_, rfl, rfl, fun _ => rfl,
    fun r hr => if_pos (regNamed_of_le hr), fun r _ hr => if_pos (regNamed_of_le hr)⟩
  · have hn : engineNext s = true := by simp [engineNext, envNext, hr, he]
    have hacc := runSteps_one (StepEffect.step_eq (.accepts hn hp hv hd))
    obtain ⟨hfinish, hbusy⟩ := (AnswersToCome.of_accept hi hp hr hd hlen he).runSteps_finish
    refine ⟨runSteps_add hacc _ ▸ hfinish, fun n t h1 hlt ht => ?_⟩
    obtain ⟨m, rfl⟩ := Nat.exists_eq_add_of_le h1
    rw [runSteps_add hacc] at ht
    exact hbusy m t (by omega) ht
  · exact ⟨_, StepEffect.step_eq (.rejects hn hp hv hd), hp, rfl, rfl⟩

/-- Settles O11: `acceptInstr`, written out. -/
theorem initAccepted : Obligations.InitAccepted := by
  intro s hp
  rw [exec_accepted rfl rfl hp, acceptInstr, acceptCommand, decide_eq_true rfl, contractMark_init]
  rfl

/-- Settles O12: `acceptInstr`, written out. -/
theorem regrdAccepted : Obligations.RegrdAccepted :=
  fun _ _ hp hr => exec_accepted rfl (regNamed_of_le hr) hp

/-- Settles O13: `acceptInstr`, written out. -/
theorem regwrAccepted : Obligations.RegwrAccepted :=
  fun _ _ _ hp hr => exec_accepted rfl (regNamed_of_le hr) hp

/-- Settles O14: `acceptInstr`, written out. -/
theorem portrdAccepted : Obligations.PortrdAccepted :=
  fun _ hp => exec_accepted rfl rfl hp

/-- Settles O15: `acceptInstr`, written out. -/
theorem portwrAccepted : Obligations.PortwrAccepted :=
  fun _ _ hp => exec_accepted rfl rfl hp

/-- Settles O28. -/
theorem stepRunsDecodedCommand : Obligations.StepRunsDecodedCommand := by
  intro s i hn hp hv hd
  refine step_of_runInstr ((turn_of_engine_idle hn hp).trans ?_)
  rw [if_pos hv, turnOfCommand, hd]

/-- Settles O29. -/
theorem stepRunsDecodedFrame : Obligations.StepRunsDecodedFrame := by
  intro s i ans hn hp hx hd
  refine step_of_runInstr ((turn_of_engine_busy hn hp).trans ?_)
  rw [hx, Option.isSome_some, if_pos rfl, turnOfFrame, hd]

end Sys2Proof.Proofs

/-! # INIT (42_init.md): its ten exchanges, what they leave in the expander, and the obligations -/

namespace Sys2Proof.Machine

/-! ## The transport's status (R122, R136) -/

/-- R136: the status of a completion reaches `acc_ok` and, at a finish, `resp.xfer_ok`; its length reaches nothing. -/
theorem complete_of_same_rx {c c' : Completion} (hrx : c'.rx = c.rx) (s : State) :
    ∃ ok xfer, complete c' s =
      { complete c s with accOk := ok, resp := { (complete c s).resp with xferOk := xfer } } := by
  have hrecv : receive c' s = { receive c s with accOk := accumulateOk s.accOk c'.fail } := by simp [receive, hrx]
  cases hp : s.phase with
  | idle => rw [complete_idle hp, complete_idle hp, hrecv]; exact ⟨_, s.resp.xferOk, rfl⟩
  | initW k => rw [complete_initW hp, complete_initW hp, hrecv]; exact ⟨_, s.resp.xferOk, rfl⟩
  | wrW => rw [complete_wrW hp, complete_wrW hp, hrecv]; exact ⟨_, s.resp.xferOk, rfl⟩
  | initRb => rw [complete_initRb hp, complete_initRb hp, hrecv, hrx]; exact ⟨_, _, rfl⟩
  | wrRb => rw [complete_wrRb hp, complete_wrRb hp, hrecv, hrx]; exact ⟨_, _, rfl⟩
  | rd => rw [complete_rd hp, complete_rd hp, hrecv, hrx]; exact ⟨_, _, rfl⟩

/-! ## The device's state (R38, R125) -/

/-- R125: INIT's finish gives the latched device the state that `resp.verified` says. -/
theorem devStateAt_complete_initRb {s : State} (hp : s.phase = .initRb) (c : Completion) :
    devStateAt (complete c s) s.latch.addr =
      if (complete c s).resp.verified then .initialized else .uninitialized := by
  simp [devStateAt, complete_initRb hp, finishResp]

/-- R38: of the moves without reset only a completion of INIT's read-back changes `dev_state`. -/
theorem StepEffect.devState_or_initFinish {s t : State} (hr : s.resetIn = false) (h : StepEffect s t) :
    (t.devState = s.devState ∧ ¬(s.phase = .initRb ∧ t.phase = .idle)) ∨
      (s.phase = .initRb ∧ ∃ c m n, t = complete c { takeTurn s with mem := m, freeCount := n }) := by
  have hkept : t.phase = s.phase → ¬(s.phase = .initRb ∧ t.phase = .idle) :=
    fun ht ⟨hs, hi⟩ => nomatch (ht.symm.trans hi).symm.trans hs
  cases h with
  | reset hr' => simp [hr] at hr'
  | envMoves _ he => exact .inl ⟨envStep_devState s, hkept (envStep_phase s)⟩
  | accepts hn hp hv hd => exact .inl ⟨rfl, fun h => nomatch hp.symm.trans h.1⟩
  | rejects hn hp hv hd => exact .inl ⟨rfl, hkept rfl⟩
  | passes hn hw => exact .inl ⟨rfl, hkept rfl⟩
  | @completes a i f hn hp hx hd hf =>
    obtain ⟨m, n, he, -⟩ := hf.state_eq a (takeTurn s)
    rw [he]
    by_cases hq : s.phase = .initRb
    · exact .inr ⟨hq, _, m, n, rfl⟩
    · exact .inl ⟨complete_devState_of_ne (by exact hq) _, fun h => hq h.1⟩

/-! ## The phases and registers of INIT (R108, R121) -/

/-- R108: the phase of INIT's exchange `n`, counted from 0: the nine writes, then the read-back. -/
def initPhase (n : Nat) : Phase := if h : n < 9 then .initW ⟨n, h⟩ else .initRb

theorem initPhase_of_lt {n : Nat} (h : n < 9) : initPhase n = .initW ⟨n, h⟩ := dif_pos h

theorem afterInitWrite_eq_initPhase (k : Fin 9) : afterInitWrite k = initPhase (k.val + 1) := by
  revert k; decide

theorem initReg_number_injective : Function.Injective fun k => (initReg k).number := by decide

/-- R124: of the registers of `c`'s device the first `n` in INIT's order hold their configured bytes in `m`, and every
location INIT does not write is as in `m₀`. -/
structure ConfiguredUpTo (c : DeviceConfig) (m₀ : Memory) (n : Nat) (m : Memory) : Prop where
  written : ∀ k : Fin 9, k.val < n → devRead m c.address (initReg k).number = initVal c.rc k
  kept : ∀ (a : DeviceAddress) (r : RegNum), (a ≠ c.address ∨ ∀ k : Fin 9, r ≠ (initReg k).number) →
    devRead m a r = devRead m₀ a r

theorem ConfiguredUpTo.zero (c : DeviceConfig) (m : Memory) : ConfiguredUpTo c m 0 m := ⟨nofun, fun _ _ _ => rfl⟩

/-- R121: INIT's next write stores one byte more, and touches none of those stored. -/
theorem ConfiguredUpTo.devWrite {c : DeviceConfig} {m₀ m : Memory} {k : Fin 9} (h : ConfiguredUpTo c m₀ k.val m) :
    ConfiguredUpTo c m₀ (k.val + 1) (devWrite m c.address (initReg k).number (initVal c.rc k)) where
  written j hj := by
    obtain rfl | hne := eq_or_ne j k
    · exact devRead_devWrite_same _ _ _ _
    · have hreg : (c.address, (initReg j).number) ≠ (c.address, (initReg k).number) :=
        fun he => hne (initReg_number_injective (Prod.ext_iff.1 he).2)
      rw [devRead_devWrite_other _ _ hreg]
      exact h.written j (by omega)
  kept a r hw := by
    have hloc : (a, r) ≠ (c.address, (initReg k).number) := by
      rintro ⟨⟩
      exact hw.elim (· rfl) (· k rfl)
    rw [devRead_devWrite_other _ _ hloc]
    exact h.kept a r hw

/-! ## One exchange, said of the state it starts in (R101) -/

/-- R101: an answer depends neither on the port it stands on nor on the moves to come. -/
theorem FrameAnswer.of_answered {i : Instr} {f : Answer → State → Completion × State} (hf : FrameAnswer i f) (a : Answer)
    (x : Option Answer) (moves : List EnvMove) (s : State) :
    f a { s with xrsp := x, env := moves } = ((f a s).1,
      { s with xrsp := x, env := moves, mem := (f a s).2.mem, freeCount := (f a s).2.freeCount }) := by
  cases hf with
  | write address value hr => cases a <;> rfl
  | read address hr => cases a <;> rfl

/-- One exchange in two steps: the completion of the answer, the expanders' registers as the answer leaves them. -/
theorem FrameAnswer.runSteps_complete {i : Instr} {f : Answer → State → Completion × State} (hf : FrameAnswer i f)
    {s : State} {a : Answer} {rest : List EnvMove} (hp : s.phase ≠ .idle) (hr : s.resetIn = false) (hx : s.xrsp = none)
    (hd : decodeFrame s.tx = .ok i) (he : s.env = exchangeMoves a ++ rest) :
    runSteps 2 s = .next (complete (f a s).1
      { s with env := rest, mem := (f a s).2.mem, freeCount := (f a s).2.freeCount }) := by
  rw [hf.runSteps_exchange hp hr hx hd he, hf.of_answered]
  exact congrArg _ (complete_withAnswer _ _ { s with
    env := rest, mem := (f a s).2.mem, freeCount := (f a s).2.freeCount })

/-! ## INIT's exchanges (R120 to R123) -/

/-- R100: the frame outstanding after `enter` is that of the phase. -/
theorem frameFor_enter {p : Phase} (hp : p ≠ .idle) (s : State) :
    frameFor (enter p s).phase (enter p s).latch = some (enter p s).tx := by
  cases p with
  | idle => contradiction
  | _ => rfl

/-- R9: whether an answer reports a failed exchange; the reference devices' never does (R52, R64). -/
def Answer.fails : Answer → Bool
  | .idealDevice => false
  | .corruptingDevice => false
  | .general c _ => c.fail

theorem answerWrite_fail (a : Answer) (d : DeviceAddress) (r : RegNum) (v : Byte) (s : State) :
    (answerWrite a d r v s).1.fail = a.fails := by cases a <;> rfl

theorem answerRead_fail (a : Answer) (d : DeviceAddress) (r : RegNum) (s : State) :
    (answerRead a d r s).1.fail = a.fails := by cases a <;> rfl

/-- An INIT of `c` whose exchanges so far were answered by `answered`, the frame of the next one outstanding, with `moves` to
come; `m₀` is what the expanders held at its accept. -/
structure InitProgress (c : DeviceConfig) (m₀ : Memory) (answered : List Answer) (moves : List EnvMove) (s : State) :
    Prop where
  noReset : s.resetIn = false
  unanswered : s.xrsp = none
  phase : s.phase = initPhase answered.length
  addr : s.latch.addr = c.address
  rc : s.latch.rc = c.rc
  frame : frameFor s.phase s.latch = some s.tx
  accOk : s.accOk = answered.all (!·.fails)
  mem : (∀ a ∈ answered, a = .idealDevice) → ConfiguredUpTo c m₀ answered.length s.mem
  moves : s.env = moves

/-- R100, R120: the accept of a presented INIT leaves all its exchanges to come. -/
theorem InitProgress.of_accept {s : State} {moves : List EnvMove} (hp : s.phase = .idle) (hr : s.resetIn = false)
    (hv : s.cmdValid = true) (hx : s.xrsp = none) (hd : decodeCmd s.cmdWord = .ok .init)
    (he : s.env = .letEngine :: moves) :
    ∃ t, step s = .next t ∧ InitProgress s.cmdCfg s.mem [] moves t := by
  have hn : engineNext s = true := by simp [engineNext, envNext, hr, he]
  exact ⟨_, StepEffect.step_eq (.accepts hn hp hv hd), hr, hx, rfl, rfl, rfl, rfl, rfl, fun _ => .zero _ _,
    congrArg List.tail he⟩

section

variable {c : DeviceConfig} {m₀ : Memory} {answered : List Answer} {moves : List EnvMove} {s : State}

theorem InitProgress.phase_initW (h : InitProgress c m₀ answered moves s) {k : Fin 9} (hk : answered.length = k.val) :
    s.phase = .initW k := by
  rw [h.phase, hk, initPhase_of_lt k.isLt]

theorem InitProgress.tx_initW (h : InitProgress c m₀ answered moves s) {k : Fin 9} (hk : answered.length = k.val) :
    s.tx = encodeWrite c.address (initReg k).number (initVal c.rc k) := by
  have hf := h.frame
  rw [h.phase_initW hk] at hf
  rw [← Option.some.inj hf, h.addr, h.rc]

theorem InitProgress.phase_initRb (h : InitProgress c m₀ answered moves s) (hn : answered.length = 9) :
    s.phase = .initRb := by
  rw [h.phase, hn]; rfl

theorem InitProgress.tx_initRb (h : InitProgress c m₀ answered moves s) (hn : answered.length = 9) :
    s.tx = encodeRead c.address RegisterId.configuration.number := by
  have hf := h.frame
  rw [h.phase_initRb hn] at hf
  rw [← Option.some.inj hf, h.addr]

/-- R122: a write's exchange goes on to the next one, whatever the transport answers. -/
theorem InitProgress.write {a : Answer} {rest : List EnvMove}
    (h : InitProgress c m₀ answered (exchangeMoves a ++ rest) s) (hn : answered.length < 9) :
    ∃ t, runSteps 2 s = .next t ∧ InitProgress c m₀ (answered ++ [a]) rest t := by
  obtain ⟨k, hk⟩ : ∃ k : Fin 9, answered.length = k.val := ⟨⟨_, hn⟩, rfl⟩
  have hp := h.phase_initW hk
  have hlen : (answered ++ [a]).length = k.val + 1 := by simp [hk]
  have hrun := (FrameAnswer.write c.address (initVal c.rc k) (regNamed_number (initReg k))).runSteps_complete
    (by simp [hp]) h.noReset h.unanswered (h.tx_initW hk ▸ decodeFrame_encodeWrite _ (regNamed_number _) _) h.moves
  rw [complete_initW (by exact hp)] at hrun
  refine ⟨_, hrun, h.noReset, rfl, ?_, h.addr, h.rc, frameFor_enter (afterInitWrite_ne_idle k) _, ?_,
    fun hideal => ?_, rfl⟩
  · rw [hlen, enter_phase, afterInitWrite_eq_initPhase]
  · simp [h.accOk, answerWrite_fail, accumulateOk]
  · obtain rfl : a = .idealDevice := hideal a (by simp)
    have hmem := h.mem fun b hb => hideal b (by simp [hb])
    rw [hk] at hmem
    rw [hlen]
    exact hmem.devWrite

/-- R120, R121: two steps for each answer, and as many of INIT's writes are done. -/
theorem InitProgress.runSteps_writes {answers todo : List Answer} {rest : List EnvMove}
    (h : InitProgress c m₀ [] ((answers ++ todo).flatMap exchangeMoves ++ rest) s)
    (hn : answers.length ≤ 9) :
    ∃ t, runSteps (2 * answers.length) s = .next t ∧
      InitProgress c m₀ answers (todo.flatMap exchangeMoves ++ rest) t := by
  induction answers using List.reverseRecOn generalizing todo with
  | nil => exact ⟨s, rfl, h⟩
  | append_singleton answers a ih =>
    rw [List.length_append] at hn
    rw [List.append_assoc] at h
    obtain ⟨t, ht, hprog⟩ := ih h (Nat.le_of_succ_le hn)
    obtain ⟨u, hu, hnext⟩ := InitProgress.write (rest := todo.flatMap exchangeMoves ++ rest) hprog hn
    refine ⟨u, ?_, hnext⟩
    rw [List.length_append, Nat.mul_add]
    exact (runSteps_add ht 2).trans hu

/-- R121: in particular after the first `k` answers of a list. -/
theorem InitProgress.runSteps_take {answers : List Answer} {rest : List EnvMove} {k : Nat}
    (h : InitProgress c m₀ [] (answers.flatMap exchangeMoves ++ rest) s) (hk : k ≤ 9) (hlen : k ≤ answers.length) :
    ∃ t, runSteps (2 * k) s = .next t ∧
      InitProgress c m₀ (answers.take k) ((answers.drop k).flatMap exchangeMoves ++ rest) t := by
  have htake := List.length_take_of_le hlen
  rw [← List.take_append_drop k answers] at h
  obtain ⟨t, ht, hprog⟩ := h.runSteps_writes (htake.trans_le hk)
  exact ⟨t, htake ▸ ht, hprog⟩

/-- R123, R125: the read-back's exchange finishes INIT with the byte the transport gives. -/
theorem InitProgress.readBack {a : Answer} {rest : List EnvMove}
    (h : InitProgress c m₀ answered (exchangeMoves a ++ rest) s) (hn : answered.length = 9) :
    ∃ t, runSteps 2 s = .next t ∧ t.phase = .idle ∧ t.env = rest ∧
      t.resp = finishResp (verifiedFlag (answerRead a c.address 0x5#4 s).1.rx.b2 c.rc.configuration)
        (answerRead a c.address 0x5#4 s).1.rx.b2 ((answered ++ [a]).all (!·.fails)) ∧
      devStateAt t c.address = (if t.resp.verified then .initialized else .uninitialized) ∧
      t.mem = (answerRead a c.address 0x5#4 s).2.mem := by
  have hp := h.phase_initRb hn
  have hrun := (FrameAnswer.read c.address (regNamed_number .configuration)).runSteps_complete (by simp [hp]) h.noReset
    h.unanswered (h.tx_initRb hn ▸ decodeFrame_encodeRead _ (regNamed_number _)) h.moves
  refine ⟨_, hrun, ?_, complete_env _ _, ?_, h.addr ▸ devStateAt_complete_initRb (by exact hp) _, complete_mem _ _⟩
  · rw [complete_phase]
    exact congrArg phaseAfter hp
  · rw [complete_initRb (by exact hp)]
    simp [h.rc, h.accOk, answerRead_fail, accumulateOk, RegisterId.number]

end

/-- Answers of any kind, given by their completions and their changes in the expanders (log 9). -/
def generalAnswers (answers : List (Completion × List DeviceChange)) : List Answer :=
  answers.map fun p => .general p.1 p.2

theorem length_generalAnswers (answers : List (Completion × List DeviceChange)) :
    (generalAnswers answers).length = answers.length := List.length_map _

theorem generalAnswers_all_not_fails (answers : List (Completion × List DeviceChange)) :
    (generalAnswers answers).all (!·.fails) = answers.all fun p => !p.1.fail := List.all_map

end Sys2Proof.Machine

/-! ## The obligations of 42_init.md -/

namespace Sys2Proof.Proofs

open Sys2Proof.Machine

/-- Settles O43: a step without reset is INIT's finish or leaves `dev_state` alone. -/
theorem deviceStateFollowsInit : Obligations.DeviceStateFollowsInit := by
  intro s t hr h
  obtain ⟨hdev, hno⟩ | ⟨hp, c, m, n, rfl⟩ := (StepEffect.of_step h).devState_or_initFinish hr
  · exact ⟨fun hf => absurd hf hno, fun _ => hdev⟩
  · refine ⟨fun _ => ⟨devStateAt_complete_initRb (by exact hp) c, fun d hd => ?_⟩, fun hno => absurd ⟨hp, ?_⟩ hno⟩
    · exact devStateAt_complete_of_ne (by exact hd) c
    · rw [complete_phase]
      exact congrArg phaseAfter hp

/-- Settles O45: both completions arrive alike but for the status (`complete_of_same_rx`). -/
theorem transportStatusNeverSteers : Obligations.TransportStatusNeverSteers := by
  intro s t i c c' changes hp hrx hx h hc
  obtain ⟨f, hf⟩ := FrameAnswer.exists_of_wellFormed hc (wellFormed_of_exec_frame hc h)
  obtain rfl := Host.Outcome.next.inj (h.symm.trans (hf.exec_general hp hx))
  obtain ⟨ok, xfer, he⟩ := complete_of_same_rx hrx { s with mem := applyChanges changes s.mem }
  refine ⟨ok, xfer, (hf.exec_general (s := { s with xrsp := some (.general c' changes) }) hp rfl).trans ?_⟩
  rw [← he]
  exact congrArg _ (complete_withAnswer c' _ { s with mem := applyChanges changes s.mem })

/-- Settles O55: nine writes (`InitProgress.runSteps_writes`), and the read-back. -/
theorem initRuns : Obligations.InitRuns := by
  intro s answers last lastChanges rest hp hr hv hx hd hlen he
  have hnine : (generalAnswers answers).length = 9 := (length_generalAnswers answers).trans hlen
  obtain ⟨u, hacc, hstart⟩ := InitProgress.of_accept hp hr hv hx hd he
  obtain ⟨v, hwrites, hprog⟩ := hstart.runSteps_writes (answers := generalAnswers answers) hnine.le
  rw [hnine] at hwrites
  refine ⟨fun k => ?_, ⟨v, (runSteps_succ hacc 18).trans hwrites, hprog.phase_initRb hnine, hprog.tx_initRb hnine⟩, ?_⟩
  · have hlt : k.val ≤ (generalAnswers answers ++ [Answer.general last lastChanges]).length := by
      rw [List.length_append]; omega
    obtain ⟨t, ht, hmid⟩ := hstart.runSteps_take k.isLt.le hlt
    have hk := List.length_take_of_le hlt
    exact ⟨t, (runSteps_succ hacc _).trans ht, hmid.phase_initW hk, hmid.tx_initW hk⟩
  · obtain ⟨t, hread, hidle, henv, hresp, hdev, -⟩ := hprog.readBack hnine
    refine ⟨t, ((runSteps_succ hacc 20).trans (runSteps_add hwrites 2)).trans hread, hidle, henv, ?_, ?_⟩
    · rw [hresp, List.all_append, generalAnswers_all_not_fails]
      simp [finishResp, verifiedFlag, answerRead, Answer.fails]
    · simp [hdev, hresp, finishResp, verifiedFlag, answerRead]

/-- Settles O57: each write stores its byte, so the read-back gives the configured one. -/
theorem initConfiguresIdealDevice : Obligations.InitConfiguresIdealDevice := by
  intro s rest hp hr hv hx hd he
  obtain ⟨u, hacc, hstart⟩ := InitProgress.of_accept hp hr hv hx hd he
  obtain ⟨v, hwrites, hprog⟩ := InitProgress.runSteps_writes (answers := List.replicate 9 .idealDevice)
    (todo := [.idealDevice]) hstart (by simp)
  obtain ⟨t, hread, hidle, henv, hresp, hdev, hmem⟩ := hprog.readBack (by simp)
  obtain ⟨hwritten, hkept⟩ := hprog.mem fun a ha => List.eq_of_mem_replicate ha
  have hbyte : devRead v.mem s.cmdCfg.address 0x5#4 = s.cmdCfg.rc.configuration := hwritten 0 (by simp)
  rw [List.length_replicate] at hwrites
  refine ⟨t, ((runSteps_succ hacc 20).trans (runSteps_add hwrites 2)).trans hread, hidle, henv, ?_, ?_, fun k => ?_,
    fun a r h => ?_⟩
  · simp [hresp, finishResp, verifiedFlag, answerRead, hbyte, Answer.fails]
  · simp [hdev, hresp, finishResp, verifiedFlag, answerRead, hbyte]
  · rw [hmem]; exact hwritten k (by simp)
  · rw [hmem]; exact hkept a r h

/-- Settles O56: the table is read off, and byte 0 of a frame is R83's. -/
theorem initWriteOrder : Obligations.InitWriteOrder :=
  ⟨by decide, fun _ => rfl, fun _ => rfl,
    fun k l => congrArg (fun b => some (Frame.mk b ((initReg k).number.setWidth 8) (initVal l.rc k)))
      (encodeWrite_b0 l.addr (initReg k).number (initVal l.rc k)),
    fun l => congrArg (fun b => some (Frame.mk b 0x05#8 0x00#8)) (encodeRead_b0 l.addr 0x5#4), by decide⟩

end Sys2Proof.Proofs

/-! # The ends of a command (60_exceptions.md): rejections, waits and the rows of the table, and the obligations -/

namespace Sys2Proof.Machine

/-! ## Nothing to wait for (R147, R164) -/

theorem takeTurn_of_no_moves {s : State} (h : s.env = []) : takeTurn s = s := by
  have ht : s.env.tail = s.env := by rw [h, List.tail_nil]
  rw [takeTurn, ht]

/-- R147, R164: with no move to come and no step of the engine enabled, a step leaves the state as it was. -/
theorem step_of_waiting {s : State} (hr : s.resetIn = false) (he : s.env = [])
    (hw : (s.phase = .idle ∧ s.cmdValid = false) ∨ (s.phase ≠ .idle ∧ s.xrsp = none)) : step s = .next s := by
  have hn : engineNext s = true := engineNext_iff.2 ⟨hr, by rw [envNext, he]⟩
  have hpass := StepEffect.step_eq (.passes hn hw)
  rwa [takeTurn_of_no_moves he] at hpass

theorem runSteps_of_step_self {s : State} (h : step s = .next s) (n : Nat) : runSteps n s = .next s := by
  induction n with
  | zero => rfl
  | succ n ih => rw [runSteps_succ h, ih]

/-! ## When a step stops (R135, U11) -/

/-- Where every outstanding frame is one of the opcode table, some move can be made. -/
theorem exists_stepEffect {s : State} (htx : s.phase ≠ .idle → ∃ i, decodeFrame s.tx = .ok i) :
    ∃ t, StepEffect s t := by
  cases hr : s.resetIn with
  | true => exact ⟨_, .reset hr⟩
  | false =>
    cases he : envNext s with
    | true => exact ⟨_, .envMoves hr he⟩
    | false =>
      have hn : engineNext s = true := engineNext_iff.2 ⟨hr, he⟩
      by_cases hp : s.phase = .idle
      · cases hv : s.cmdValid with
        | false => exact ⟨_, .passes hn (.inl ⟨hp, hv⟩)⟩
        | true =>
          cases hd : decodeCmd s.cmdWord with
          | ok i => exact ⟨_, .accepts hn hp hv hd⟩
          | error e => exact ⟨_, .rejects hn hp hv hd⟩
      · cases hx : s.xrsp with
        | none => exact ⟨_, .passes hn (.inr ⟨hp, hx⟩)⟩
        | some a =>
          obtain ⟨i, hd⟩ := htx hp
          obtain ⟨hc, hw⟩ := decodeFrame_ok hd
          obtain ⟨f, hf⟩ := FrameAnswer.exists_of_wellFormed hc hw
          exact ⟨_, .completes hn hp hx hd hf⟩

/-! ## The rows of the table (R140) -/

theorem commandEnd_illegalResp (isRead : Bool) : commandEnd isRead illegalResp = some .rejected := by
  cases isRead <;> rfl

/-- R140: a read ends in a row of reads; nothing is verified. -/
theorem commandEnd_finishResp_read (b : Byte) (xferOk : Bool) :
    commandEnd true (finishResp false b xferOk) = some (if xferOk then .cleanRead else .failedRead) := by
  cases xferOk <;> rfl

/-- R140: any other command ends in the row its two flags say. -/
theorem commandEnd_finishResp_write (verified : Bool) (b : Byte) (xferOk : Bool) :
    commandEnd false (finishResp verified b xferOk) = some
      (if xferOk then (if verified then .cleanWrite else .mismatch)
        else if verified then .failureVerifyPassed else .failureAndMismatch) := by
  cases xferOk <;> cases verified <;> rfl

/-- R140, R141: a finish is a row of the table other than the rejection's, a row of reads exactly for a read. -/
theorem exists_commandEnd_finishResp {isRead verified : Bool} (b : Byte) (xferOk : Bool)
    (hv : isRead = true → verified = false) :
    ∃ row, commandEnd isRead (finishResp verified b xferOk) = some row ∧ row ≠ .rejected ∧
      (row = .cleanRead ∨ row = .failedRead ↔ isRead = true) := by
  cases isRead with
  | true =>
    rw [hv rfl]
    refine ⟨_, commandEnd_finishResp_read b xferOk, ?_⟩
    cases xferOk <;> decide
  | false =>
    refine ⟨_, commandEnd_finishResp_write verified b xferOk, ?_⟩
    cases xferOk <;> cases verified <;> decide

end Sys2Proof.Machine

/-! ## The obligations of 60_exceptions.md -/

namespace Sys2Proof.Proofs

open Sys2Proof.Machine

/-- Settles O33: each step of a waiting machine leaves the state as it was. -/
theorem nothingMovesWithoutInput : Obligations.NothingMovesWithoutInput :=
  fun _ n hr he hw => runSteps_of_step_self (step_of_waiting hr he hw.symm) n

/-- Settles O37: only a stray frame stops a step, and in a state of the invariant the frame outstanding decodes. -/
theorem stepNeverStops : Obligations.StepNeverStops := by
  intro s hi
  obtain ⟨t, ht⟩ := exists_stepEffect hi.decodeFrame_tx
  exact ⟨t, ht.step_eq⟩

/-- Settles O48: what a step can do to the response is O41 (`responseHeld`), and the responses it writes are rows of the
table. -/
theorem commandEndsInTable : Obligations.CommandEndsInTable := by
  intro s t hr h
  obtain ⟨hheld, hidle, haccept, hreject, hbusy, hfinish⟩ := responseHeld s t hr h
  refine ⟨fun ⟨hn, hp, hv, e, hd⟩ isRead => ?_, fun hp hq => ?_, fun hs ht => ?_⟩
  · exact hreject e hn hp hv hd ▸ commandEnd_illegalResp isRead
  · obtain ⟨verified, hresp, hrd, -⟩ := hfinish hp hq
    obtain ⟨row, hrow, hne, hread⟩ := exists_commandEnd_finishResp (isRead := s.phase == .rd) t.rx.b2 t.accOk
      fun hread => hrd (beq_iff_eq.1 hread)
    exact ⟨row, hresp ▸ hrow, hne, hread.trans beq_iff_eq⟩
  · have hwritten : t.resp ≠ s.resp := fun he => nomatch (he ▸ ht).symm.trans hs
    by_cases hp : s.phase = .idle
    · have hn : engineNext s = true := by
        by_contra hn
        exact hwritten (hheld (Bool.eq_false_iff.2 hn))
      have hv : s.cmdValid = true := by
        by_contra hv
        exact hwritten (hidle hp (Bool.eq_false_iff.2 hv))
      refine .inl ⟨hn, hp, hv, ?_⟩
      cases hd : decodeCmd s.cmdWord with
      | error e => exact ⟨e, rfl⟩
      | ok i => rw [haccept i hn hp hv hd] at ht; cases ht
    · exact .inr ⟨hp, by_contra fun hq => hwritten (hbusy hp hq)⟩

/-- Settles O16: such a register field names no register, so neither instruction is well formed. -/
theorem unnamedRegisterRejected : Obligations.UnnamedRegisterRejected :=
  fun _ _ _ hp hreg => ⟨exec_rejected rfl (regNamed_of_beyond hreg) hp, exec_rejected rfl (regNamed_of_beyond hreg) hp⟩

/-- Settles O17: `raiseIllegal` after the engine's turn, written out. -/
theorem illegalCommandStep : Obligations.IllegalCommandStep :=
  fun _ _ hn hp hv hd => StepEffect.step_eq (.rejects hn hp hv hd)

/-- Settles O23: either frame's exec is an exchange that waits. -/
theorem frameWithoutAnswerWaits : Obligations.FrameWithoutAnswerWaits := by
  intro s a reg v hreg hp hx
  have hn := regNamed_of_le hreg
  exact ⟨((FrameAnswer.write a v hn).exec_eq s).trans (exchange_waiting hp hx _),
    ((FrameAnswer.read a hn).exec_eq s).trans (exchange_waiting hp hx _)⟩

end Sys2Proof.Proofs

/-! # Reset and hazards (70_reset_and_hazards.md): what reset does to the exchange it cuts off, the last finish, late answers,
and the obligations -/

namespace Sys2Proof.Machine

/-! ## Leaving a busy phase (R108, R160) -/

/-- R101, R160: without reset only an answered exchange moves a busy engine to another phase, by its completion. -/
theorem StepEffect.completion_of_phase_ne {s t : State} (h : StepEffect s t) (hr : s.resetIn = false)
    (hp : s.phase ≠ .idle) (hne : t.phase ≠ s.phase) :
    s.xrsp ≠ none ∧ ∃ c m n, t = complete c { takeTurn s with mem := m, freeCount := n } := by
  cases h with
  | reset hr' => exact nomatch hr.symm.trans hr'
  | envMoves _ he => exact absurd (envStep_phase s) hne
  | accepts hn hp' hv hd => exact absurd hp' hp
  | rejects hn hp' hv hd => exact absurd hp' hp
  | passes hn hw => exact absurd rfl hne
  | @completes a i f hn _ hx hd hf =>
    obtain ⟨m, n, he, -⟩ := hf.state_eq a (takeTurn s)
    exact ⟨hx ▸ nofun, _, m, n, congrArg _ he⟩

/-! ## The exchange that reset cuts off (R161, U12, log 13) -/

theorem memAfterCutOff_idle {s : State} (hp : s.phase = .idle) : memAfterCutOff s = s.mem := by
  simp only [memAfterCutOff, hp]

/-- R161, U12: the exchange did not take effect, or it did. -/
theorem memAfterCutOff_cases (s : State) : memAfterCutOff s = s.mem ∨ memAfterCutOff s = memIfApplied s := by
  unfold memAfterCutOff
  split
  · exact .inl rfl
  · split
    · exact .inr rfl
    · exact .inl rfl

theorem FrameAnswer.memIfApplied_answered {i : Instr} {f : Answer → State → Completion × State} (hf : FrameAnswer i f) {s : State}
    (hd : decodeFrame s.tx = .ok i) {ans : Answer} (hx : s.xrsp = some ans) : memIfApplied s = (f ans s).2.mem := by
  cases hf <;> simp only [memIfApplied, hd, hx]

theorem memIfApplied_write_unanswered {s : State} {a : DeviceAddress} {reg : RegNum} {v : Byte}
    (hd : decodeFrame s.tx = .ok (.frameWrite a reg v)) (hx : s.xrsp = none) :
    memIfApplied s = devWrite s.mem a reg v := by
  simp only [memIfApplied, hd, hx]

theorem memIfApplied_read_unanswered {s : State} {a : DeviceAddress} {reg : RegNum}
    (hd : decodeFrame s.tx = .ok (.frameRead a reg)) (hx : s.xrsp = none) : memIfApplied s = s.mem := by
  simp only [memIfApplied, hd, hx]

/-- Log 9: the changes of an answer that is no reference device's are the same for either frame. -/
theorem memIfApplied_general {i : Instr} {s : State} (hd : decodeFrame s.tx = .ok i) {c : Completion}
    {changes : List DeviceChange} (hx : s.xrsp = some (.general c changes)) :
    memIfApplied s = applyChanges changes s.mem := by
  obtain ⟨hc, hw⟩ := decodeFrame_ok hd
  obtain ⟨f, hf⟩ := FrameAnswer.exists_of_wellFormed hc hw
  rw [hf.memIfApplied_answered hd hx, hf.general_eq]

/-- Log 9: an answer that is no general one is a reference device's. -/
theorem StoresAs.exists_of_not_general {ans : Answer} (hx : ∀ c changes, some ans ≠ some (.general c changes)) :
    ∃ g, StoresAs ans g := by
  cases ans with
  | idealDevice => exact ⟨_, .ideal⟩
  | corruptingDevice => exact ⟨_, .corrupting⟩
  | general c changes => exact absurd rfl (hx c changes)

/-- The byte a write frame's value becomes in the expander, with no answer there or a reference device's (R52, R64, log 13). -/
inductive CutOffStores (v : Byte) : Option Answer → Byte → Prop where
  | unanswered : CutOffStores v none v
  | answered {ans : Answer} {g : Byte → Byte} (hg : StoresAs ans g) : CutOffStores v (some ans) (g v)

theorem CutOffStores.exists_of_not_general {x : Option Answer} (hx : ∀ c changes, x ≠ some (.general c changes))
    (v : Byte) : ∃ w, CutOffStores v x w := by
  cases x with
  | none => exact ⟨v, .unanswered⟩
  | some ans =>
    obtain ⟨g, hg⟩ := StoresAs.exists_of_not_general hx
    exact ⟨g v, .answered hg⟩

section
variable {s : State} {a : DeviceAddress} {reg : RegNum} {v w : Byte}

theorem CutOffStores.memIfApplied_eq (hs : CutOffStores v s.xrsp w) (hd : decodeFrame s.tx = .ok (.frameWrite a reg v)) :
    memIfApplied s = devWrite s.mem a reg w := by
  cases hx : s.xrsp with
  | none =>
    rw [hx] at hs
    cases hs
    exact memIfApplied_write_unanswered hd hx
  | some ans =>
    rw [hx] at hs
    cases hs with
    | answered hg =>
      rw [(FrameAnswer.write a v (decodeFrame_ok hd).2).memIfApplied_answered hd hx, hg.answerWrite_mem]

/-- R161: the register of the write frame cut off holds its old value or the one that was to be stored. -/
theorem CutOffStores.devRead_same (hs : CutOffStores v s.xrsp w) (hd : decodeFrame s.tx = .ok (.frameWrite a reg v)) :
    devRead (memAfterCutOff s) a reg = devRead s.mem a reg ∨ devRead (memAfterCutOff s) a reg = w := by
  obtain he | he := memAfterCutOff_cases s
  · exact .inl (by rw [he])
  · exact .inr (by rw [he, hs.memIfApplied_eq hd, devRead_devWrite_same])

/-- R162: every other register holds what it held. -/
theorem CutOffStores.devRead_other (hs : CutOffStores v s.xrsp w) (hd : decodeFrame s.tx = .ok (.frameWrite a reg v))
    {a' : DeviceAddress} {r' : RegNum} (hne : (a', r') ≠ (a, reg)) :
    devRead (memAfterCutOff s) a' r' = devRead s.mem a' r' := by
  obtain he | he := memAfterCutOff_cases s
  · rw [he]
  · rw [he, hs.memIfApplied_eq hd, devRead_devWrite_other _ _ hne]

end

/-- R161: the changes of an answer that is no reference device's are made or not; in IDLE nothing is cut off. -/
theorem memAfterCutOff_general {s : State} {c : Completion} {changes : List DeviceChange}
    (hcut : s.phase = .idle ∨ ∃ i, decodeFrame s.tx = .ok i) (hx : s.xrsp = some (.general c changes)) :
    memAfterCutOff s = s.mem ∨ memAfterCutOff s = applyChanges changes s.mem := by
  obtain hp | ⟨i, hd⟩ := hcut
  · exact .inl (memAfterCutOff_idle hp)
  · exact memIfApplied_general hd hx ▸ memAfterCutOff_cases s

/-- R162, R54: a read frame cut off, with no answer there or a reference device's, leaves the expanders as they were. -/
theorem memAfterCutOff_read {s : State} {a : DeviceAddress} {reg : RegNum}
    (hd : decodeFrame s.tx = .ok (.frameRead a reg)) (hx : ∀ c changes, s.xrsp ≠ some (.general c changes)) :
    memAfterCutOff s = s.mem := by
  have happ : memIfApplied s = s.mem := by
    cases hans : s.xrsp with
    | none => exact memIfApplied_read_unanswered hd hans
    | some ans =>
      obtain ⟨g, hg⟩ := StoresAs.exists_of_not_general (hans ▸ hx)
      rw [(FrameAnswer.read a (decodeFrame_ok hd).2).memIfApplied_answered hd hans, hg.answerRead_mem]
  obtain he | he := memAfterCutOff_cases s
  · exact he
  · exact he.trans happ

/-! ## The end of a run (R172) -/

/-- R172: a completion that finishes leaves a valid response. -/
theorem complete_resp_valid {s : State} (hp : s.phase ≠ .idle) {c : Completion} (h : (complete c s).phase = .idle) :
    (complete c s).resp.valid = true := by
  obtain ⟨verified, hresp, -⟩ := complete_resp_of_idle hp h
  rw [hresp]
  rfl

/-- A move used up presents no command: none comes after it that was not to come before. -/
theorem any_presents_tail {e : List EnvMove} (h : e.any EnvMove.presents = false) :
    e.tail.any EnvMove.presents = false := by
  cases e with
  | nil => rfl
  | cons m ms => exact (Bool.or_eq_false_iff.1 h).2

end Sys2Proof.Machine

/-! ## The obligations of 70_reset_and_hazards.md -/

namespace Sys2Proof.Proofs

open Sys2Proof.Machine

/-- Settles O31: the reset step is `resetEngine`, and any other step that leaves a busy phase is a completion. -/
theorem resetStep : Obligations.ResetStep := by
  refine ⟨fun s hr => ⟨_, StepEffect.step_eq (.reset hr), rfl, rfl, rfl, rfl, rfl, rfl, rfl, rfl, rfl, rfl, rfl, rfl,
    fun a => ?_, rfl⟩, fun s t h hp hne hr => ?_⟩
  · simp [devStateAt]
  · exact ((StepEffect.of_step h).completion_of_phase_ne hr hp hne).1

/-- Settles O32: the next state is `resetEngine s`, whose expanders are `memAfterCutOff s`. -/
theorem resetDuringExchange : Obligations.ResetDuringExchange := by
  refine ⟨fun s a reg v hr _ hreg htx => ?_, fun s a reg hr hcut => ?_⟩
  · have hd : decodeFrame s.tx = .ok (.frameWrite a reg v) :=
      htx ▸ decodeFrame_encodeWrite a (regNamed_of_le hreg) v
    refine ⟨_, StepEffect.step_eq (.reset hr), rfl, rfl, rfl, fun hx => ?_, fun hx => ?_, fun c changes hx => ?_,
      fun hx a' r' hne => ?_⟩
    · have hs : CutOffStores v s.xrsp v := by
        obtain hx | hx := hx
        · exact hx ▸ .unanswered
        · exact hx ▸ .answered .ideal
      exact hs.devRead_same hd
    · have hs : CutOffStores v s.xrsp (corrupted v) := hx ▸ .answered .corrupting
      exact hs.devRead_same hd
    · exact memAfterCutOff_general (.inr ⟨_, hd⟩) hx
    · obtain ⟨w, hs⟩ := CutOffStores.exists_of_not_general hx v
      exact hs.devRead_other hd hne
  · have hd : s.phase = .idle ∨ decodeFrame s.tx = .ok (.frameRead a reg) :=
      hcut.imp_right fun ⟨hreg, htx⟩ => htx ▸ decodeFrame_encodeRead a (regNamed_of_le hreg)
    refine ⟨_, StepEffect.step_eq (.reset hr), rfl, rfl, fun h => ?_, fun c changes hx => ?_⟩
    · by_cases hp : s.phase = .idle
      · exact memAfterCutOff_idle hp
      · exact memAfterCutOff_read (hd.resolve_left hp) (h.resolve_right hp)
    · exact memAfterCutOff_general (hd.imp_right fun hd => ⟨_, hd⟩) hx

/-- Settles O49: the finish is a completion, which writes a valid response and presents no command. -/
theorem lastFinishEndsRun : Obligations.LastFinishEndsRun := by
  intro s t hr hp h ht hv he
  obtain ⟨-, c, m, n, rfl⟩ := (StepEffect.of_step h).completion_of_phase_ne hr hp (ht ▸ hp.symm)
  have hresp := complete_resp_valid (s := { takeTurn s with mem := m, freeCount := n }) hp ht
  rw [runEnded, ht, hresp, complete_cmdValid, complete_env]
  simp [hv, any_presents_tail he]

/-- Settles O25: the answer that moves next is ignored, and the exchange asked for in IDLE drops the one there is. -/
theorem lateAnswerIgnored : Obligations.LateAnswerIgnored := by
  refine ⟨fun s ans rest hr hx he => ?_, fun s a reg v hreg hp => ?_⟩
  · rw [step_of_envNext hr (by simp [envNext, he]), envStep_cons he]
    exact congrArg _ (answerRequest_ignored (s := { s with env := rest }) hx ans)
  · have hn := regNamed_of_le hreg
    exact ⟨((FrameAnswer.write a v hn).exec_eq s).trans (exchange_idle hp _),
      ((FrameAnswer.read a hn).exec_eq s).trans (exchange_idle hp _)⟩

end Sys2Proof.Proofs
